-- ==== Sys2Proof/Word.lean ====
section
/-! DEFINITION. The widths of the PK-740 and their plainest arithmetic (R2, R8, R46). -/

namespace Sys2Proof

/-- Eight bits. -/
abbrev Byte := BitVec 8
/-- One instruction word (R74). -/
abbrev Half := BitVec 16
/-- A w register or a system register (R8, R27). -/
abbrev Word := BitVec 64
/-- A 64-byte engine command, byte n in bits [8n+7:8n] (R163). -/
abbrev Cmd := BitVec 512

/-- A one-bit field of a word. -/
def bit (w : Nat) (i : Nat) : Bool := w.testBit i

/-- `x[hi:lo]` as an unsigned number (R8). -/
def bits (x hi lo : Nat) : Nat := (x >>> lo) % 2 ^ (hi + 1 - lo)

/-- 1 for true. -/
def b2n (b : Bool) : Nat := if b then 1 else 0

/-- The low n bits of x read as a signed number: `sv(x,n)` (R8). -/
def sv (x n : Nat) : Int :=
  let u := x % 2 ^ n
  if n ≠ 0 ∧ 2 ^ (n - 1) ≤ u then (u : Int) - (2 ^ n : Nat) else (u : Int)

/-- An exact integer reduced to a width. -/
def narrow (n : Nat) (x : Int) : Nat := (x % ((2 ^ n : Nat) : Int)).toNat

end Sys2Proof
end

