-- ==== Sys2Proof/Syntax.lean ====
section
/-! DEFINITION. The steps of the PK-740: one constructor for each row of the opcode table. The 173 base functions carry
the fields of their base word and the prefixes of their chain (R74 to R91); the engine commands and the events of the
other agents carry what says where they happen: a core `k`, a context `h`, or an index `n` into the list of waiting work. -/

namespace Sys2Proof

/-- PFX.R: the high parts of a and b and the third register number c (R81, R85). -/
structure RegExt where
  aHi : BitVec 2
  bHi : BitVec 2
  c   : BitVec 6
  deriving DecidableEq, Repr

/-- PFX.F: the operand replaced (false: b, true: c) and the distance k (R87). -/
structure Fwd where
  onC : Bool
  k   : BitVec 4
  deriving DecidableEq, Repr

/-- PFX.Q: scope, order or rounding, non-temporal, element type (R88, R89). -/
structure Qual where
  scope : BitVec 3
  order : BitVec 2
  nt    : Bool
  et    : BitVec 4
  deriving DecidableEq, Repr

/-- The prefix words of a chain. Their order among each other carries no meaning (R82); the payloads of the PFX.I words
stand in chain order (R83). -/
structure Pre where
  imms : List (BitVec 12) := []
  reg  : Option RegExt := none
  page : Option (BitVec 10) := none
  fwd  : Option Fwd := none
  qual : Option Qual := none
  deriving DecidableEq, Repr

/-- A chain that decoding rejects: REASON, position and word of the trap value (R92, R93). -/
structure Ill where
  reason : BitVec 4
  index  : BitVec 3
  word   : Half
  deriving DecidableEq, Repr

/-- A rectangle: origin core, rows minus 1, columns minus 1 (R233). -/
structure Rect where
  origin : Nat
  nr     : Nat
  nc     : Nat
  deriving DecidableEq, Repr

/-- A translation that Klogar installs (R390, R391): size code 0 4 KiB, 1 64 KiB, 2 2 MiB, 3 1 GiB. -/
structure PageSpec where
  asid   : Nat
  va     : Nat
  size   : Nat
  frame  : Nat
  die    : Nat
  writable : Bool
  exec   : Bool
  remote : Option Nat
  bytes  : List (Nat × Byte)
  deriving DecidableEq, Repr

/-- A load request (R359, R361, R387). `inst` none: a library or an instance's first version, then named `newInst`. `rects`,
`second` and `owners` are Klogar's placement of a first version (R233, R298); `stages` names each stream's members; `ctrs` are counter pages that
the controller asks for with the load, each with its home core id and its address (R286). -/
structure LoadReq where
  object  : List Byte
  asid    : Nat
  inst    : Option Nat
  newInst : Nat
  base    : Option Nat
  hdie    : Option Nat
  upc     : Option Nat
  sw      : Bool
  actlim  : Nat
  rects   : List Rect
  second  : List (Nat × List Nat)
  stages  : List (Nat × List Nat)
  ctrs    : List (Nat × Nat) := []
  deriving DecidableEq, Repr

/-- What an array's code finds (R405). -/
inductive EccResult
  | clean
  | corrected
  | uncorrectable
  deriving DecidableEq, Repr

/-- A link that has exhausted its retries (R401, R412). -/
inductive LinkFault
  | mesh (unit : Nat)
  | lane (n : Nat)
  | package (dest : Nat)
  deriving DecidableEq, Repr

/-- What a PKL flit carries (R399). -/
inductive Payload
  | message (core : Nat) (hdr : BitVec 128) (t0 t1 : Word)
  /-- an item for the home of a stream (R190, R238) -/
  | item (strm core : Nat) (hdr : BitVec 128) (t0 t1 : Word)
  /-- a message that an arm sent, for a ready ring (R193, R235) -/
  | armed (core : Nat) (hdr : BitVec 128) (t0 t1 : Word)
  | copyWrite (asid va : Nat) (data : List Byte)
  | ctrAdd (asid va : Nat) (inc : Nat)
  | other
  deriving DecidableEq, Repr

/-- A flit at this package's port: destination package, hops made, payload (R399). -/
structure Flit where
  dest : Nat
  hops : Nat
  body : Payload
  deriving DecidableEq, Repr

/-- What the debug port reads or injects into (R416, R417). -/
inductive DebugTarget
  | wreg (h n : Nat)
  | vreg (h n : Nat)
  | sreg (h n : Nat)
  | lsByte (a : Nat)
  | memByte (pa : Nat)
  | mxuEntry (i : Nat)
  | chanEntry (ch i : Nat)
  | held (i : Nat)
  | counter (asid va : Nat)
  /-- byte j of the snapshot record of context h -/
  | snap (h j : Nat)
  /-- the word at a global virtual address in the instruction cache -/
  | icache (asid va : Nat)
  /-- a byte of the cluster cache, by its physical address -/
  | cacheByte (pa : Nat)
  deriving DecidableEq, Repr

/-- The retirement of a core, and whether it has failed a self-test (R412, R413). -/
structure Retirement where
  core   : Nat
  failed : Bool
  deriving DecidableEq, Repr

/-- The resumption of a core, and whether the debugger enables break capture for what follows (R105, R415). -/
structure Resumed where
  core    : Nat
  capture : Bool
  deriving DecidableEq, Repr

/-- The value of a data injection, and the context and address of the instruction at whose completion it is made, once; none: at once (R417). -/
structure Injected where
  value : Nat
  once  : Option (Nat × Nat)
  deriving DecidableEq, Repr

/-- The stored bits that a check-bit injection flips, and what the code finds where three or more are flipped (R417, R405). -/
structure Flipped where
  mask  : Nat
  found : EccResult
  deriving DecidableEq, Repr

/-- Klogar's answer to a service (R389): the part Klogar chooses. A status of 0 is success; `addr` is the address, the
frame, the queue pair or the Klogar interface version that it picked. -/
structure SvcAnswer where
  status : Nat
  addr   : Nat
  frame  : Nat
  deriving DecidableEq, Repr

/-- One step of the machine: a base function of a chain, an engine command or an event of another agent. -/
inductive Instr
  /-- SYS_NOP, R101. -/
  | sysNop
  /-- SYS_END, R102. -/
  | sysEnd
  /-- SYS_END_P, R103. -/
  | sysEndP
  /-- SYS_ABORT, R104. -/
  | sysAbort
  /-- SYS_BRK, R105. -/
  | sysBrk (c : BitVec 4)
  /-- SYS_SVC, R106. -/
  | sysSvc (c : BitVec 4)
  /-- SYS_RETT, R107. -/
  | sysRett
  /-- SYS_IDLE, R108. -/
  | sysIdle
  /-- SYS_SPLIT, R212. -/
  | sysSplit
  /-- SYS_FENCE, R217. -/
  | sysFence (s : BitVec 4)
  /-- SYS_FENCE_REL, R217. -/
  | sysFenceRel (s : BitVec 4)
  /-- SYS_FENCE_ACQ, R217. -/
  | sysFenceAcq (s : BitVec 4)
  /-- SYS_FENCE_DRAIN, R217. -/
  | sysFenceDrain (s : BitVec 4)
  /-- SYS_FENCE_IBAR, R218. -/
  | sysFenceIbar
  /-- SYS_VTYPE, R109. -/
  | sysVtype (t y : BitVec 4)
  /-- SYS_REP, R110. -/
  | sysRep (p : Pre) (l y : BitVec 4)
  /-- ALU_ADD, R112. -/
  | aluAdd (p : Pre) (a b : BitVec 4)
  /-- ALU_SUB, R112. -/
  | aluSub (p : Pre) (a b : BitVec 4)
  /-- ALU_AND, R112. -/
  | aluAnd (p : Pre) (a b : BitVec 4)
  /-- ALU_OR, R112. -/
  | aluOr (p : Pre) (a b : BitVec 4)
  /-- ALU_XOR, R112. -/
  | aluXor (p : Pre) (a b : BitVec 4)
  /-- ALU_SHL, R112. -/
  | aluShl (p : Pre) (a b : BitVec 4)
  /-- ALU_SHR, R112. -/
  | aluShr (p : Pre) (a b : BitVec 4)
  /-- ALU_SAR, R112. -/
  | aluSar (p : Pre) (a b : BitVec 4)
  /-- ALU_MUL, R112. -/
  | aluMul (p : Pre) (a b : BitVec 4)
  /-- ALU_MULH, R112. -/
  | aluMulh (p : Pre) (a b : BitVec 4)
  /-- ALU_MULHN, R112. -/
  | aluMulhn (p : Pre) (a b : BitVec 4)
  /-- ALU_MIN, R112. -/
  | aluMin (p : Pre) (a b : BitVec 4)
  /-- ALU_MAX, R112. -/
  | aluMax (p : Pre) (a b : BitVec 4)
  /-- ALU_MINN, R112. -/
  | aluMinn (p : Pre) (a b : BitVec 4)
  /-- ALU_MAXN, R112. -/
  | aluMaxn (p : Pre) (a b : BitVec 4)
  /-- ALU_CMP, R113. -/
  | aluCmp (p : Pre) (a b : BitVec 4)
  /-- ALUI_ADDI, R115. -/
  | aluiAddi (p : Pre) (a i : BitVec 4)
  /-- ALUI_ANDI, R115. -/
  | aluiAndi (p : Pre) (a i : BitVec 4)
  /-- ALUI_ORI, R115. -/
  | aluiOri (p : Pre) (a i : BitVec 4)
  /-- ALUI_XORI, R115. -/
  | aluiXori (p : Pre) (a i : BitVec 4)
  /-- ALUI_SHLI, R115. -/
  | aluiShli (p : Pre) (a i : BitVec 4)
  /-- ALUI_SHRI, R115. -/
  | aluiShri (p : Pre) (a i : BitVec 4)
  /-- ALUI_SARI, R115. -/
  | aluiSari (p : Pre) (a i : BitVec 4)
  /-- ALUI_MULI, R115. -/
  | aluiMuli (p : Pre) (a i : BitVec 4)
  /-- ALUI_CMPI, R113. -/
  | aluiCmpi (p : Pre) (a i : BitVec 4)
  /-- ALUI_MINI, R115. -/
  | aluiMini (p : Pre) (a i : BitVec 4)
  /-- ALUI_MAXI, R115. -/
  | aluiMaxi (p : Pre) (a i : BitVec 4)
  /-- ALUI_LDA, R115. -/
  | aluiLda (p : Pre) (a i : BitVec 4)
  /-- MOVI, R116. -/
  | movi (p : Pre) (a : BitVec 4) (i : BitVec 8)
  /-- LDAP, R117. -/
  | ldap (p : Pre) (a : BitVec 4) (i : BitVec 8)
  /-- FPU_FADD, R119. -/
  | fpuFadd (p : Pre) (a b : BitVec 4)
  /-- FPU_FSUB, R119. -/
  | fpuFsub (p : Pre) (a b : BitVec 4)
  /-- FPU_FMUL, R119. -/
  | fpuFmul (p : Pre) (a b : BitVec 4)
  /-- FPU_FMA, R119. -/
  | fpuFma (p : Pre) (a b : BitVec 4)
  /-- FPU_FMIN, R119. -/
  | fpuFmin (p : Pre) (a b : BitVec 4)
  /-- FPU_FMAX, R119. -/
  | fpuFmax (p : Pre) (a b : BitVec 4)
  /-- FPU_FCMP, R120. -/
  | fpuFcmp (p : Pre) (a b : BitVec 4)
  /-- FPU_FABS, R119. -/
  | fpuFabs (p : Pre) (a b : BitVec 4)
  /-- FPU_FNEG, R119. -/
  | fpuFneg (p : Pre) (a b : BitVec 4)
  /-- FPU_FCVTI, R119. -/
  | fpuFcvti (p : Pre) (a b : BitVec 4)
  /-- FPU_FCVTF, R119. -/
  | fpuFcvtf (p : Pre) (a b : BitVec 4)
  /-- FPU_FCVT, R119. -/
  | fpuFcvt (p : Pre) (a b : BitVec 4)
  /-- FPU_FCLASS, R121. -/
  | fpuFclass (p : Pre) (a b : BitVec 4)
  /-- FPU_FRND, R119. -/
  | fpuFrnd (p : Pre) (a b : BitVec 4)
  /-- FPU_FSCL, R119. -/
  | fpuFscl (p : Pre) (a b : BitVec 4)
  /-- BRC_B, R125. -/
  | brcB (p : Pre) (d : BitVec 8)
  /-- BRC_EQ, R124. -/
  | brcEq (p : Pre) (d : BitVec 8)
  /-- BRC_NE, R124. -/
  | brcNe (p : Pre) (d : BitVec 8)
  /-- BRC_LT, R124. -/
  | brcLt (p : Pre) (d : BitVec 8)
  /-- BRC_GE, R124. -/
  | brcGe (p : Pre) (d : BitVec 8)
  /-- BRC_GT, R124. -/
  | brcGt (p : Pre) (d : BitVec 8)
  /-- BRC_LE, R124. -/
  | brcLe (p : Pre) (d : BitVec 8)
  /-- BRC_LO, R124. -/
  | brcLo (p : Pre) (d : BitVec 8)
  /-- BRC_HS, R124. -/
  | brcHs (p : Pre) (d : BitVec 8)
  /-- BRC_HI, R124. -/
  | brcHi (p : Pre) (d : BitVec 8)
  /-- BRC_LS, R124. -/
  | brcLs (p : Pre) (d : BitVec 8)
  /-- BRC_UN, R124. -/
  | brcUn (p : Pre) (d : BitVec 8)
  /-- BRC_OR, R124. -/
  | brcOr (p : Pre) (d : BitVec 8)
  /-- BRC_VS, R124. -/
  | brcVs (p : Pre) (d : BitVec 8)
  /-- BRC_VC, R124. -/
  | brcVc (p : Pre) (d : BitVec 8)
  /-- BRC_CALL, R125. -/
  | brcCall (p : Pre) (d : BitVec 8)
  /-- XFER_MOV, R126. -/
  | xferMov (p : Pre) (a b : BitVec 4)
  /-- XFER_JR, R127. -/
  | xferJr (p : Pre) (b : BitVec 4)
  /-- XFER_CALLR, R127. -/
  | xferCallr (p : Pre) (b : BitVec 4)
  /-- XFER_RET, R127. -/
  | xferRet (p : Pre)
  /-- XFER_QCALL, R213. -/
  | xferQcall (p : Pre) (b : BitVec 4)
  /-- XFER_MFS, R128. -/
  | xferMfs (p : Pre) (a b : BitVec 4)
  /-- XFER_MTS, R128. -/
  | xferMts (p : Pre) (a b : BitVec 4)
  /-- XFER_START, R209. -/
  | xferStart (p : Pre) (a b : BitVec 4)
  /-- XFER_JOINH, R210. -/
  | xferJoinh (p : Pre) (b : BitVec 4)
  /-- XFER_CPL, R211. -/
  | xferCpl (p : Pre) (b : BitVec 4)
  /-- XFER_CLZ, R126. -/
  | xferClz (p : Pre) (a b : BitVec 4)
  /-- XFER_POPC, R126. -/
  | xferPopc (p : Pre) (a b : BitVec 4)
  /-- XFER_BSWAP, R126. -/
  | xferBswap (p : Pre) (a b : BitVec 4)
  /-- XFER_TST, R113. -/
  | xferTst (p : Pre) (a b : BitVec 4)
  /-- XFER_PURGE, R214. -/
  | xferPurge (p : Pre) (b : BitVec 4)
  /-- XFER_IINV, R129. -/
  | xferIinv (p : Pre) (a b : BitVec 4)
  /-- LD, R131. -/
  | ld (p : Pre) (a b l : BitVec 4)
  /-- LD_V, R131. -/
  | ldV (p : Pre) (a b l : BitVec 4)
  /-- ST, R131. -/
  | st (p : Pre) (a b l : BitVec 4)
  /-- ST_V, R131. -/
  | stV (p : Pre) (a b l : BitVec 4)
  /-- VEC_ADD, R147. -/
  | vecAdd (p : Pre) (a b : BitVec 4)
  /-- VEC_SUB, R147. -/
  | vecSub (p : Pre) (a b : BitVec 4)
  /-- VEC_MUL, R147. -/
  | vecMul (p : Pre) (a b : BitVec 4)
  /-- VEC_FMA, R147. -/
  | vecFma (p : Pre) (a b : BitVec 4)
  /-- VEC_MIN, R147. -/
  | vecMin (p : Pre) (a b : BitVec 4)
  /-- VEC_MAX, R147. -/
  | vecMax (p : Pre) (a b : BitVec 4)
  /-- VEC_AND, R147. -/
  | vecAnd (p : Pre) (a b : BitVec 4)
  /-- VEC_OR, R147. -/
  | vecOr (p : Pre) (a b : BitVec 4)
  /-- VEC_XOR, R147. -/
  | vecXor (p : Pre) (a b : BitVec 4)
  /-- VEC_SHL, R147. -/
  | vecShl (p : Pre) (a b : BitVec 4)
  /-- VEC_SHR, R147. -/
  | vecShr (p : Pre) (a b : BitVec 4)
  /-- VEC_SAR, R147. -/
  | vecSar (p : Pre) (a b : BitVec 4)
  /-- VEC_ABS, R147. -/
  | vecAbs (p : Pre) (a b : BitVec 4)
  /-- VEC_NEG, R147. -/
  | vecNeg (p : Pre) (a b : BitVec 4)
  /-- VEC_MOV, R147. -/
  | vecMov (p : Pre) (a b : BitVec 4)
  /-- VEC_BC, R147. -/
  | vecBc (p : Pre) (a b : BitVec 4)
  /-- VEC_CEQ, R148. -/
  | vecCeq (p : Pre) (a b : BitVec 4)
  /-- VEC_CLT, R148. -/
  | vecClt (p : Pre) (a b : BitVec 4)
  /-- VEC_CLE, R148. -/
  | vecCle (p : Pre) (a b : BitVec 4)
  /-- VEC_SEL, R148. -/
  | vecSel (p : Pre) (a b : BitVec 4)
  /-- VEC_RSUM, R149. -/
  | vecRsum (p : Pre) (a b : BitVec 4)
  /-- VEC_RMAX, R149. -/
  | vecRmax (p : Pre) (a b : BitVec 4)
  /-- VEC_RMIN, R149. -/
  | vecRmin (p : Pre) (a b : BitVec 4)
  /-- VEC_PERM, R148. -/
  | vecPerm (p : Pre) (a b : BitVec 4)
  /-- VEC_SLD, R148. -/
  | vecSld (p : Pre) (a b : BitVec 4)
  /-- VEC_EXT, R148. -/
  | vecExt (p : Pre) (a b : BitVec 4)
  /-- VEC_INS, R148. -/
  | vecIns (p : Pre) (a b : BitVec 4)
  /-- VEC_DOT, R150. -/
  | vecDot (p : Pre) (a b : BitVec 4)
  /-- VEC_IOTA, R148. -/
  | vecIota (p : Pre) (a b : BitVec 4)
  /-- VEC_CVT, R151. -/
  | vecCvt (p : Pre) (a b : BitVec 4)
  /-- VEC_QNT, R153. -/
  | vecQnt (p : Pre) (a b : BitVec 4)
  /-- VEC_DQNT, R154. -/
  | vecDqnt (p : Pre) (a b : BitVec 4)
  /-- VEC_PACK, R155. -/
  | vecPack (p : Pre) (a b : BitVec 4)
  /-- VEC_UNPK, R156. -/
  | vecUnpk (p : Pre) (a b : BitVec 4)
  /-- VEC_LUT, R157. -/
  | vecLut (p : Pre) (a b : BitVec 4)
  /-- VEC_LDTB, R158. -/
  | vecLdtb (p : Pre) (b : BitVec 4)
  /-- VEC_RND, R159. -/
  | vecRnd (p : Pre) (a b : BitVec 4)
  /-- VEC_ADDI, R160. -/
  | vecAddi (p : Pre) (a b : BitVec 4)
  /-- VEC_MULI, R160. -/
  | vecMuli (p : Pre) (a b : BitVec 4)
  /-- VEC_MINI, R160. -/
  | vecMini (p : Pre) (a b : BitVec 4)
  /-- VEC_MAXI, R160. -/
  | vecMaxi (p : Pre) (a b : BitVec 4)
  /-- VEC_CEQI, R160. -/
  | vecCeqi (p : Pre) (a b : BitVec 4)
  /-- VEC_CLTI, R160. -/
  | vecClti (p : Pre) (a b : BitVec 4)
  /-- VEC_BCI, R160. -/
  | vecBci (p : Pre) (a b : BitVec 4)
  /-- VEC_FMAI, R160. -/
  | vecFmai (p : Pre) (a b : BitVec 4)
  /-- LONG_DIV, R123. -/
  | longDiv (p : Pre) (a b l : BitVec 4)
  /-- LONG_DIVN, R123. -/
  | longDivn (p : Pre) (a b l : BitVec 4)
  /-- LONG_REM, R123. -/
  | longRem (p : Pre) (a b l : BitVec 4)
  /-- LONG_REMN, R123. -/
  | longRemn (p : Pre) (a b l : BitVec 4)
  /-- LONG_FDIV, R123. -/
  | longFdiv (p : Pre) (a b l : BitVec 4)
  /-- LONG_FSQRT, R123. -/
  | longFsqrt (p : Pre) (a b l : BitVec 4)
  /-- LONG_VEXP2, R161. -/
  | longVexp2 (p : Pre) (a b l : BitVec 4)
  /-- LONG_VRCP, R161. -/
  | longVrcp (p : Pre) (a b l : BitVec 4)
  /-- LONG_VRSQ, R161. -/
  | longVrsq (p : Pre) (a b l : BitVec 4)
  /-- LONG_VLOG2, R161. -/
  | longVlog2 (p : Pre) (a b l : BitVec 4)
  /-- LONG_CWAIT, R196. -/
  | longCwait (p : Pre) (a b : BitVec 4)
  /-- LONG_CREAD, R195. -/
  | longCread (p : Pre) (a b l : BitVec 4)
  /-- LONG_CTEST, R195. -/
  | longCtest (p : Pre) (a b l : BitVec 4)
  /-- LONG_WPWAIT, R196. -/
  | longWpwait (p : Pre) (a b : BitVec 4)
  /-- LONG_SOPEN, R216. -/
  | longSopen (p : Pre) (a b l : BitVec 4)
  /-- SEND_MSG, R190. -/
  | sendMsg (p : Pre) (a b l : BitVec 4)
  /-- SEND_QMSG, R190. -/
  | sendQmsg (p : Pre) (a b l : BitVec 4)
  /-- SEND_ITEM, R190. -/
  | sendItem (p : Pre) (a b l : BitVec 4)
  /-- SEND_MPUSH, R198. -/
  | sendMpush (p : Pre) (a b l : BitVec 4)
  /-- SEND_CPUSH, R199. -/
  | sendCpush (p : Pre) (a b l : BitVec 4)
  /-- SEND_SPUSH, R204. -/
  | sendSpush (p : Pre) (a b l : BitVec 4)
  /-- SEND_CADD, R194. -/
  | sendCadd (p : Pre) (a b l : BitVec 4)
  /-- SEND_CADDR, R194. -/
  | sendCaddr (p : Pre) (a b l : BitVec 4)
  /-- SEND_ARM, R193. -/
  | sendArm (p : Pre) (a b l : BitVec 4)
  /-- SEND_REPLY, R192. -/
  | sendReply (p : Pre) (a b l : BitVec 4)
  /-- MEM_SMAP, R137. -/
  | memSmap (p : Pre) (a b : BitVec 4)
  /-- MEM_SUNMAP, R138. -/
  | memSunmap (p : Pre) (a : BitVec 4)
  /-- MEM_SFLUSH, R138. -/
  | memSflush (p : Pre) (a b : BitVec 4)
  /-- MEM_SINV, R138. -/
  | memSinv (p : Pre) (a b : BitVec 4)
  /-- MEM_SCLOSE, R138. -/
  | memSclose (p : Pre) (a : BitVec 4)
  /-- MEM_LSCLR, R139. -/
  | memLsclr (p : Pre) (a b : BitVec 4)
  /-- ASYNC_TRAP, R221. -/
  | asyncTrap (k : Nat)
  /-- ILLEGAL_INSTRUCTION, R91. -/
  | illegalInstruction (e : Ill)
  /-- LONG_RESULT_WRITE, R30. -/
  | longResultWrite (k h : Nat)
  /-- IDLE_END, R108. -/
  | idleEnd (k h : Nat)
  /-- SVC_ANSWER, R106. -/
  | svcAnswer (k h : Nat) (a : SvcAnswer)
  /-- WRITE_BACK_ACCEPTED, R245. -/
  | writeBackAccepted (n : Nat)
  /-- MMA, R168. -/
  | mma (k : Nat)
  /-- MZERO, R171. -/
  | mzero (k : Nat)
  /-- MMASK, R172. -/
  | mmask (k : Nat)
  /-- MOUT, R174. -/
  | mout (k : Nat)
  /-- MSIG, R175. -/
  | msig (k : Nat)
  /-- MLINK, R176. -/
  | mlink (k : Nat)
  /-- MNOP, R177. -/
  | mnop (k : Nat)
  /-- OPERAND_TILE_ARRIVAL, R271. -/
  | operandTileArrival (k : Nat) (south : Bool)
  /-- SKIMMER_FETCH, R274. -/
  | skimmerFetch (k : Nat) (opB : Bool)
  /-- MXU_SAVE, R285. -/
  | mxuSave (k : Nat)
  /-- RECTANGLE_REPAIR, R273. -/
  | rectangleRepair (k : Nat)
  /-- CCOPY, R200. -/
  | ccopy (k ch : Nat)
  /-- CCOPY2, R200. -/
  | ccopy2 (k ch : Nat)
  /-- CFILL, R200. -/
  | cfill (k ch : Nat)
  /-- CSIG, R202. -/
  | csig (k ch : Nat)
  /-- SECTOR_DELIVERY, R202. -/
  | sectorDelivery (k ch : Nat)
  /-- SECTOR_ACCEPTED, R202. -/
  | sectorAccepted (k ch : Nat)
  /-- NRD, R207. -/
  | nrd (n : Nat)
  /-- NWR, R207. -/
  | nwr (n : Nat)
  /-- NFL, R207. -/
  | nfl (n : Nat)
  /-- ZDEC, R207. -/
  | zdec (n : Nat)
  /-- CSUM, R207. -/
  | csum (n : Nat)
  /-- STORAGE_COMPLETION, R208. -/
  | storageCompletion (n : Nat)
  /-- COMMAND_TIMEOUT, R398. -/
  | commandTimeout (n nvst : Nat)
  /-- COUNTER_ADD, R184. -/
  | counterAdd (n : Nat)
  /-- ARM_REGISTRATION, R193. -/
  | armRegistration (n : Nat)
  /-- ARM_EMISSION, R235. -/
  | armEmission (n : Nat)
  /-- CWAIT_POLL, R288. -/
  | cwaitPoll (k h : Nat)
  /-- MESSAGE_ARRIVAL, R229. -/
  | messageArrival (n : Nat)
  /-- SPILL_REFILL, R229. -/
  | spillRefill (k : Nat)
  /-- DELIVERY_RETRY, R229. -/
  | deliveryRetry (n : Nat)
  /-- DISPATCH, R227. -/
  | dispatch (k : Nat)
  /-- ITEM_ASSIGN, R238. -/
  | itemAssign (n : Nat)
  /-- EXPORT_ARRIVAL, R239. -/
  | exportArrival (n : Nat)
  /-- VOTE, R309. -/
  | vote (n : Nat)
  /-- VERDICT, R312. -/
  | verdict (n : Nat)
  /-- VOTE_TIMEOUT, R314. -/
  | voteTimeout (n : Nat)
  /-- WDOG, R241. -/
  | wdog (k : Nat)
  /-- PREEMPTION, R333. -/
  | preemption (k : Nat)
  /-- RESUMPTION, R337. -/
  | resumption (k : Nat)
  /-- SCRUB, R340. -/
  | scrub (k inst : Nat)
  /-- VERSION_SWITCH, R371. -/
  | versionSwitch (k inst : Nat)
  /-- PURGE_MARK, R381. -/
  | purgeMark (k inst : Nat)
  /-- PURGE_ACK, R380. -/
  | purgeAck (k inst : Nat)
  /-- QUEUE_TAKE, R327. -/
  | queueTake (qid : Nat)
  /-- QUANTUM_EXPIRY, R332. -/
  | quantumExpiry (k inst : Nat)
  /-- SLOT_REVOCATION, R331. -/
  | slotRevocation (k slot : Nat)
  /-- LOAD_REQUEST, R361. -/
  | loadRequest (r : LoadReq)
  /-- SWITCH_REQUEST, R385. -/
  | switchRequest (inst : Nat)
  /-- UNSTAGE_REQUEST, R385. -/
  | unstageRequest (inst : Nat)
  /-- VERSION_REMOVAL, R384. -/
  | versionRemoval (inst : Nat)
  /-- TABLE_WALK, R390. -/
  | tableWalk (n : Nat)
  /-- PGFAULT, R391. -/
  | pgfault (n : Nat) (fix : Option PageSpec)
  /-- FETCH, R393. -/
  | fetch (k h : Nat) (fix : Option PageSpec)
  /-- TLB_SHOOTDOWN, R392. -/
  | tlbShootdown (n : Nat)
  /-- MIGR, R394. -/
  | migr (asid va die frame : Nat)
  /-- STUB_REMOVAL, R394. -/
  | stubRemoval (n : Nat)
  /-- NT_COMBINE, R246. -/
  | ntCombine (n : Nat)
  /-- CLUSTER_CACHE_EVICTION, R245. -/
  | clusterCacheEviction (n : Nat)
  /-- STASH_FILL, R133. -/
  | stashFill (k h : Nat)
  /-- L2_DEC_TED_SWITCH, R406. -/
  | l2DecTedSwitch (die : Nat)
  /-- L2_SEC_DED_RETURN, R406. -/
  | l2SecDedReturn (die : Nat)
  /-- PATROL_READ, R411. -/
  | patrolRead (unit addr : Nat) (found : EccResult)
  /-- CORE_RETIRE, R413. -/
  | coreRetire (r : Retirement)
  /-- LINK_RETRY, R405. -/
  | linkRetry (unit : Nat) (ok : Bool)
  /-- LINK_FAILURE, R412. -/
  | linkFailure (f : LinkFault)
  /-- FLIT_FORWARD, R399. -/
  | flitForward (f : Flit)
  /-- BRING_UP, R403. -/
  | bringUp (degraded failed : Bool)
  /-- POWER_THROTTLE, R404. -/
  | powerThrottle (mean : Nat)
  /-- MG_PWRCAP_WRITE, R402. -/
  | mgPwrcapWrite (v : Nat)
  /-- MG_PKGID_WRITE, R402. -/
  | mgPkgidWrite (v : Nat)
  /-- BSTAT_CLEAR, R409. -/
  | bstatClear (unit v : Nat)
  /-- DEBUG_HALT, R415. -/
  | debugHalt (k : Nat)
  /-- DEBUG_RESUME, R415. -/
  | debugResume (r : Resumed)
  /-- DEBUG_STEP, R415. -/
  | debugStep (k h : Nat)
  /-- DEBUG_READ, R416. -/
  | debugRead (k : Nat) (t : DebugTarget)
  /-- DATA_INJECTION, R417. -/
  | dataInjection (k : Nat) (t : DebugTarget) (xor : Bool) (v : Injected)
  /-- CHECK_BIT_INJECTION, R417. -/
  | checkBitInjection (k : Nat) (t : DebugTarget) (f : Flipped)
  /-- INSTANCE_DESTROY, R294. -/
  | instanceDestroy (inst : Nat)
  /-- POWER_LOSS, R267. -/
  | powerLoss
  /-- ROUTE_CHANGE, R400. -/
  | routeChange (dest : Nat) (sub : Option Nat)
  deriving DecidableEq, Repr

end Sys2Proof
end

