-- ==== Sys2Proof/Machine/Forms.lean ====
section
/-! DEFINITION. The forms of the base functions: their base words (R75, R91), their pages (R86), the role of each
register field (R79, R80, R85, R100, R142, R181) and the element types they accept (R89, R118, R144, R150, R161). -/

namespace Sys2Proof.Machine

/-- What a register field names: a w register, a v register, nothing (must be 0), an immediate (its high part must be 0), a
system register number, a type code (c[3:0]), a type and a part (`vec.cvt`), or the part bit of `vec.lut`. -/
inductive Role
  | w
  | v
  | zero
  | imm
  | num
  | typ
  | typPart
  | low1
  deriving DecidableEq, Repr

/-- The operand form of a function: the role of a and of b without and with PFX.R, the role of c, and the accepted element
type codes as a bit mask. -/
structure Form where
  a  : Role
  aR : Role
  b  : Role
  bR : Role
  c  : Role
  types : Nat
  deriving DecidableEq, Repr

/-- The form of the functions that take no register operand. -/
def Form.bare : Form := ⟨.imm, .imm, .imm, .imm, .zero, 0⟩

/-- A base word of the R and L formats: major, a, b, last field (R75). -/
def wordR (maj : Nat) (a b f : BitVec 4) : Half :=
  BitVec.ofNat 16 (maj * 4096 + a.toNat * 256 + b.toNat * 16 + f.toNat)

/-- A base word of the I8 and C formats: major, a or cond, 8 bits (R75). -/
def word8 (maj : Nat) (a : BitVec 4) (i : BitVec 8) : Half :=
  BitVec.ofNat 16 (maj * 4096 + a.toNat * 256 + i.toNat)

/-- The base word of an instruction; 0 for the rows that have none. -/
def baseWord (i : Instr) : Half :=
  match i with
  | .sysNop => wordR 0 0 0 0
  | .sysEnd => wordR 0 0 1 0
  | .sysEndP => wordR 0 0 2 0
  | .sysAbort => wordR 0 0 3 0
  | .sysBrk c => wordR 0 0 4 c
  | .sysSvc c => wordR 0 0 5 c
  | .sysRett => wordR 0 0 6 0
  | .sysIdle => wordR 0 0 7 0
  | .sysSplit => wordR 0 0 8 0
  | .sysFence s => wordR 0 1 0 s
  | .sysFenceRel s => wordR 0 1 1 s
  | .sysFenceAcq s => wordR 0 1 2 s
  | .sysFenceDrain s => wordR 0 1 3 s
  | .sysFenceIbar => wordR 0 1 4 0
  | .sysVtype t y => wordR 0 2 t y
  | .sysRep _ l y => wordR 0 3 l y
  | .aluAdd _ a b => wordR 1 a b 0
  | .aluSub _ a b => wordR 1 a b 1
  | .aluAnd _ a b => wordR 1 a b 2
  | .aluOr _ a b => wordR 1 a b 3
  | .aluXor _ a b => wordR 1 a b 4
  | .aluShl _ a b => wordR 1 a b 5
  | .aluShr _ a b => wordR 1 a b 6
  | .aluSar _ a b => wordR 1 a b 7
  | .aluMul _ a b => wordR 1 a b 8
  | .aluMulh _ a b => wordR 1 a b 9
  | .aluMulhn _ a b => wordR 1 a b 10
  | .aluMin _ a b => wordR 1 a b 11
  | .aluMax _ a b => wordR 1 a b 12
  | .aluMinn _ a b => wordR 1 a b 13
  | .aluMaxn _ a b => wordR 1 a b 14
  | .aluCmp _ a b => wordR 1 a b 15
  | .aluiAddi _ a i => wordR 2 a 0 i
  | .aluiAndi _ a i => wordR 2 a 1 i
  | .aluiOri _ a i => wordR 2 a 2 i
  | .aluiXori _ a i => wordR 2 a 3 i
  | .aluiShli _ a i => wordR 2 a 4 i
  | .aluiShri _ a i => wordR 2 a 5 i
  | .aluiSari _ a i => wordR 2 a 6 i
  | .aluiMuli _ a i => wordR 2 a 7 i
  | .aluiCmpi _ a i => wordR 2 a 8 i
  | .aluiMini _ a i => wordR 2 a 9 i
  | .aluiMaxi _ a i => wordR 2 a 10 i
  | .aluiLda _ a i => wordR 2 a 11 i
  | .movi _ a i => word8 3 a i
  | .ldap _ a i => word8 6 a i
  | .fpuFadd _ a b => wordR 4 a b 0
  | .fpuFsub _ a b => wordR 4 a b 1
  | .fpuFmul _ a b => wordR 4 a b 2
  | .fpuFma _ a b => wordR 4 a b 3
  | .fpuFmin _ a b => wordR 4 a b 4
  | .fpuFmax _ a b => wordR 4 a b 5
  | .fpuFcmp _ a b => wordR 4 a b 6
  | .fpuFabs _ a b => wordR 4 a b 7
  | .fpuFneg _ a b => wordR 4 a b 8
  | .fpuFcvti _ a b => wordR 4 a b 9
  | .fpuFcvtf _ a b => wordR 4 a b 10
  | .fpuFcvt _ a b => wordR 4 a b 11
  | .fpuFclass _ a b => wordR 4 a b 12
  | .fpuFrnd _ a b => wordR 4 a b 13
  | .fpuFscl _ a b => wordR 4 a b 14
  | .brcB _ d => word8 5 0 d
  | .brcEq _ d => word8 5 1 d
  | .brcNe _ d => word8 5 2 d
  | .brcLt _ d => word8 5 3 d
  | .brcGe _ d => word8 5 4 d
  | .brcGt _ d => word8 5 5 d
  | .brcLe _ d => word8 5 6 d
  | .brcLo _ d => word8 5 7 d
  | .brcHs _ d => word8 5 8 d
  | .brcHi _ d => word8 5 9 d
  | .brcLs _ d => word8 5 10 d
  | .brcUn _ d => word8 5 11 d
  | .brcOr _ d => word8 5 12 d
  | .brcVs _ d => word8 5 13 d
  | .brcVc _ d => word8 5 14 d
  | .brcCall _ d => word8 5 15 d
  | .xferMov _ a b => wordR 7 a b 0
  | .xferJr _ b => wordR 7 0 b 1
  | .xferCallr _ b => wordR 7 0 b 2
  | .xferRet _ => wordR 7 0 0 3
  | .xferQcall _ b => wordR 7 0 b 4
  | .xferMfs _ a b => wordR 7 a b 5
  | .xferMts _ a b => wordR 7 a b 6
  | .xferStart _ a b => wordR 7 a b 7
  | .xferJoinh _ b => wordR 7 0 b 8
  | .xferCpl _ b => wordR 7 0 b 9
  | .xferClz _ a b => wordR 7 a b 10
  | .xferPopc _ a b => wordR 7 a b 11
  | .xferBswap _ a b => wordR 7 a b 12
  | .xferTst _ a b => wordR 7 a b 13
  | .xferPurge _ b => wordR 7 0 b 14
  | .xferIinv _ a b => wordR 7 a b 15
  | .ld _ a b l => wordR 8 a b l
  | .ldV _ a b l => wordR 8 a b l
  | .st _ a b l => wordR 9 a b l
  | .stV _ a b l => wordR 9 a b l
  | .vecAdd _ a b => wordR 10 a b 0
  | .vecSub _ a b => wordR 10 a b 1
  | .vecMul _ a b => wordR 10 a b 2
  | .vecFma _ a b => wordR 10 a b 3
  | .vecMin _ a b => wordR 10 a b 4
  | .vecMax _ a b => wordR 10 a b 5
  | .vecAnd _ a b => wordR 10 a b 6
  | .vecOr _ a b => wordR 10 a b 7
  | .vecXor _ a b => wordR 10 a b 8
  | .vecShl _ a b => wordR 10 a b 9
  | .vecShr _ a b => wordR 10 a b 10
  | .vecSar _ a b => wordR 10 a b 11
  | .vecAbs _ a b => wordR 10 a b 12
  | .vecNeg _ a b => wordR 10 a b 13
  | .vecMov _ a b => wordR 10 a b 14
  | .vecBc _ a b => wordR 10 a b 15
  | .vecCeq _ a b => wordR 10 a b 0
  | .vecClt _ a b => wordR 10 a b 1
  | .vecCle _ a b => wordR 10 a b 2
  | .vecSel _ a b => wordR 10 a b 3
  | .vecRsum _ a b => wordR 10 a b 4
  | .vecRmax _ a b => wordR 10 a b 5
  | .vecRmin _ a b => wordR 10 a b 6
  | .vecPerm _ a b => wordR 10 a b 7
  | .vecSld _ a b => wordR 10 a b 8
  | .vecExt _ a b => wordR 10 a b 9
  | .vecIns _ a b => wordR 10 a b 10
  | .vecDot _ a b => wordR 10 a b 11
  | .vecIota _ a b => wordR 10 a b 12
  | .vecCvt _ a b => wordR 10 a b 0
  | .vecQnt _ a b => wordR 10 a b 1
  | .vecDqnt _ a b => wordR 10 a b 2
  | .vecPack _ a b => wordR 10 a b 3
  | .vecUnpk _ a b => wordR 10 a b 4
  | .vecLut _ a b => wordR 10 a b 5
  | .vecLdtb _ b => wordR 10 0 b 6
  | .vecRnd _ a b => wordR 10 a b 7
  | .vecAddi _ a b => wordR 10 a b 0
  | .vecMuli _ a b => wordR 10 a b 1
  | .vecMini _ a b => wordR 10 a b 2
  | .vecMaxi _ a b => wordR 10 a b 3
  | .vecCeqi _ a b => wordR 10 a b 4
  | .vecClti _ a b => wordR 10 a b 5
  | .vecBci _ a b => wordR 10 a b 6
  | .vecFmai _ a b => wordR 10 a b 7
  | .longDiv _ a b l => wordR 11 a b l
  | .longDivn _ a b l => wordR 11 a b l
  | .longRem _ a b l => wordR 11 a b l
  | .longRemn _ a b l => wordR 11 a b l
  | .longFdiv _ a b l => wordR 11 a b l
  | .longFsqrt _ a b l => wordR 11 a b l
  | .longVexp2 _ a b l => wordR 11 a b l
  | .longVrcp _ a b l => wordR 11 a b l
  | .longVrsq _ a b l => wordR 11 a b l
  | .longVlog2 _ a b l => wordR 11 a b l
  | .longCwait _ a b => wordR 11 a b 0
  | .longCread _ a b l => wordR 11 a b l
  | .longCtest _ a b l => wordR 11 a b l
  | .longWpwait _ a b => wordR 11 a b 0
  | .longSopen _ a b l => wordR 11 a b l
  | .sendMsg _ a b l => wordR 12 a b l
  | .sendQmsg _ a b l => wordR 12 a b l
  | .sendItem _ a b l => wordR 12 a b l
  | .sendMpush _ a b l => wordR 12 a b l
  | .sendCpush _ a b l => wordR 12 a b l
  | .sendSpush _ a b l => wordR 12 a b l
  | .sendCadd _ a b l => wordR 12 a b l
  | .sendCaddr _ a b l => wordR 12 a b l
  | .sendArm _ a b l => wordR 12 a b l
  | .sendReply _ a b l => wordR 12 a b l
  | .memSmap _ a b => wordR 13 a b 0
  | .memSunmap _ a => wordR 13 a 0 1
  | .memSflush _ a b => wordR 13 a b 2
  | .memSinv _ a b => wordR 13 a b 3
  | .memSclose _ a => wordR 13 a 0 4
  | .memLsclr _ a b => wordR 13 a b 5
  | .asyncTrap _ | .mma _ | .mzero _ | .mmask _ | .mout _ | .msig _ | .mlink _ | .mnop _
  | .operandTileArrival _ _ | .skimmerFetch _ _ | .mxuSave _ | .rectangleRepair _ | .ccopy _ _ | .ccopy2 _ _
  | .cfill _ _ | .csig _ _ | .sectorDelivery _ _ | .sectorAccepted _ _ | .nrd _ | .nwr _ | .nfl _ | .zdec _
  | .csum _ | .storageCompletion _ | .commandTimeout _ _ | .counterAdd _ | .armRegistration _
  | .armEmission _ | .cwaitPoll _ _ | .messageArrival _ | .spillRefill _ | .deliveryRetry _ | .dispatch _
  | .itemAssign _ | .exportArrival _ | .vote _ | .verdict _ | .voteTimeout _ | .wdog _ | .preemption _
  | .resumption _ | .scrub _ _ | .versionSwitch _ _ | .purgeMark _ _ | .purgeAck _ _ | .queueTake _
  | .quantumExpiry _ _ | .slotRevocation _ _ | .loadRequest _ | .switchRequest _ | .unstageRequest _
  | .versionRemoval _ | .tableWalk _ | .pgfault _ _ | .fetch _ _ _ | .tlbShootdown _ | .migr _ _ _ _
  | .stubRemoval _ | .ntCombine _ | .clusterCacheEviction _ | .stashFill _ _ | .l2DecTedSwitch _
  | .l2SecDedReturn _ | .patrolRead _ _ _ | .coreRetire _ | .linkRetry _ _ | .linkFailure _ | .flitForward _
  | .bringUp _ _ | .powerThrottle _ | .mgPwrcapWrite _ | .mgPkgidWrite _ | .bstatClear _ _ | .debugHalt _
  | .debugResume _ | .debugStep _ _ | .debugRead _ _ | .dataInjection _ _ _ _ | .checkBitInjection _ _ _
  | .longResultWrite _ _ | .idleEnd _ _ | .svcAnswer _ _ _ | .illegalInstruction _ | .instanceDestroy _
  | .powerLoss | .routeChange _ _ | .writeBackAccepted _ => 0

/-- The prefixes of an instruction. -/
def preOf (i : Instr) : Pre :=
  match i with
  | .sysNop => {}
  | .sysEnd => {}
  | .sysEndP => {}
  | .sysAbort => {}
  | .sysBrk _ => {}
  | .sysSvc _ => {}
  | .sysRett => {}
  | .sysIdle => {}
  | .sysSplit => {}
  | .sysFence _ => {}
  | .sysFenceRel _ => {}
  | .sysFenceAcq _ => {}
  | .sysFenceDrain _ => {}
  | .sysFenceIbar => {}
  | .sysVtype _ _ => {}
  | .sysRep p _ _ => p
  | .aluAdd p _ _ => p
  | .aluSub p _ _ => p
  | .aluAnd p _ _ => p
  | .aluOr p _ _ => p
  | .aluXor p _ _ => p
  | .aluShl p _ _ => p
  | .aluShr p _ _ => p
  | .aluSar p _ _ => p
  | .aluMul p _ _ => p
  | .aluMulh p _ _ => p
  | .aluMulhn p _ _ => p
  | .aluMin p _ _ => p
  | .aluMax p _ _ => p
  | .aluMinn p _ _ => p
  | .aluMaxn p _ _ => p
  | .aluCmp p _ _ => p
  | .aluiAddi p _ _ => p
  | .aluiAndi p _ _ => p
  | .aluiOri p _ _ => p
  | .aluiXori p _ _ => p
  | .aluiShli p _ _ => p
  | .aluiShri p _ _ => p
  | .aluiSari p _ _ => p
  | .aluiMuli p _ _ => p
  | .aluiCmpi p _ _ => p
  | .aluiMini p _ _ => p
  | .aluiMaxi p _ _ => p
  | .aluiLda p _ _ => p
  | .movi p _ _ => p
  | .ldap p _ _ => p
  | .fpuFadd p _ _ => p
  | .fpuFsub p _ _ => p
  | .fpuFmul p _ _ => p
  | .fpuFma p _ _ => p
  | .fpuFmin p _ _ => p
  | .fpuFmax p _ _ => p
  | .fpuFcmp p _ _ => p
  | .fpuFabs p _ _ => p
  | .fpuFneg p _ _ => p
  | .fpuFcvti p _ _ => p
  | .fpuFcvtf p _ _ => p
  | .fpuFcvt p _ _ => p
  | .fpuFclass p _ _ => p
  | .fpuFrnd p _ _ => p
  | .fpuFscl p _ _ => p
  | .brcB p _ => p
  | .brcEq p _ => p
  | .brcNe p _ => p
  | .brcLt p _ => p
  | .brcGe p _ => p
  | .brcGt p _ => p
  | .brcLe p _ => p
  | .brcLo p _ => p
  | .brcHs p _ => p
  | .brcHi p _ => p
  | .brcLs p _ => p
  | .brcUn p _ => p
  | .brcOr p _ => p
  | .brcVs p _ => p
  | .brcVc p _ => p
  | .brcCall p _ => p
  | .xferMov p _ _ => p
  | .xferJr p _ => p
  | .xferCallr p _ => p
  | .xferRet p => p
  | .xferQcall p _ => p
  | .xferMfs p _ _ => p
  | .xferMts p _ _ => p
  | .xferStart p _ _ => p
  | .xferJoinh p _ => p
  | .xferCpl p _ => p
  | .xferClz p _ _ => p
  | .xferPopc p _ _ => p
  | .xferBswap p _ _ => p
  | .xferTst p _ _ => p
  | .xferPurge p _ => p
  | .xferIinv p _ _ => p
  | .ld p _ _ _ => p
  | .ldV p _ _ _ => p
  | .st p _ _ _ => p
  | .stV p _ _ _ => p
  | .vecAdd p _ _ => p
  | .vecSub p _ _ => p
  | .vecMul p _ _ => p
  | .vecFma p _ _ => p
  | .vecMin p _ _ => p
  | .vecMax p _ _ => p
  | .vecAnd p _ _ => p
  | .vecOr p _ _ => p
  | .vecXor p _ _ => p
  | .vecShl p _ _ => p
  | .vecShr p _ _ => p
  | .vecSar p _ _ => p
  | .vecAbs p _ _ => p
  | .vecNeg p _ _ => p
  | .vecMov p _ _ => p
  | .vecBc p _ _ => p
  | .vecCeq p _ _ => p
  | .vecClt p _ _ => p
  | .vecCle p _ _ => p
  | .vecSel p _ _ => p
  | .vecRsum p _ _ => p
  | .vecRmax p _ _ => p
  | .vecRmin p _ _ => p
  | .vecPerm p _ _ => p
  | .vecSld p _ _ => p
  | .vecExt p _ _ => p
  | .vecIns p _ _ => p
  | .vecDot p _ _ => p
  | .vecIota p _ _ => p
  | .vecCvt p _ _ => p
  | .vecQnt p _ _ => p
  | .vecDqnt p _ _ => p
  | .vecPack p _ _ => p
  | .vecUnpk p _ _ => p
  | .vecLut p _ _ => p
  | .vecLdtb p _ => p
  | .vecRnd p _ _ => p
  | .vecAddi p _ _ => p
  | .vecMuli p _ _ => p
  | .vecMini p _ _ => p
  | .vecMaxi p _ _ => p
  | .vecCeqi p _ _ => p
  | .vecClti p _ _ => p
  | .vecBci p _ _ => p
  | .vecFmai p _ _ => p
  | .longDiv p _ _ _ => p
  | .longDivn p _ _ _ => p
  | .longRem p _ _ _ => p
  | .longRemn p _ _ _ => p
  | .longFdiv p _ _ _ => p
  | .longFsqrt p _ _ _ => p
  | .longVexp2 p _ _ _ => p
  | .longVrcp p _ _ _ => p
  | .longVrsq p _ _ _ => p
  | .longVlog2 p _ _ _ => p
  | .longCwait p _ _ => p
  | .longCread p _ _ _ => p
  | .longCtest p _ _ _ => p
  | .longWpwait p _ _ => p
  | .longSopen p _ _ _ => p
  | .sendMsg p _ _ _ => p
  | .sendQmsg p _ _ _ => p
  | .sendItem p _ _ _ => p
  | .sendMpush p _ _ _ => p
  | .sendCpush p _ _ _ => p
  | .sendSpush p _ _ _ => p
  | .sendCadd p _ _ _ => p
  | .sendCaddr p _ _ _ => p
  | .sendArm p _ _ _ => p
  | .sendReply p _ _ _ => p
  | .memSmap p _ _ => p
  | .memSunmap p _ => p
  | .memSflush p _ _ => p
  | .memSinv p _ _ => p
  | .memSclose p _ => p
  | .memLsclr p _ _ => p
  | .asyncTrap _ | .mma _ | .mzero _ | .mmask _ | .mout _ | .msig _ | .mlink _ | .mnop _
  | .operandTileArrival _ _ | .skimmerFetch _ _ | .mxuSave _ | .rectangleRepair _ | .ccopy _ _ | .ccopy2 _ _
  | .cfill _ _ | .csig _ _ | .sectorDelivery _ _ | .sectorAccepted _ _ | .nrd _ | .nwr _ | .nfl _ | .zdec _
  | .csum _ | .storageCompletion _ | .commandTimeout _ _ | .counterAdd _ | .armRegistration _
  | .armEmission _ | .cwaitPoll _ _ | .messageArrival _ | .spillRefill _ | .deliveryRetry _ | .dispatch _
  | .itemAssign _ | .exportArrival _ | .vote _ | .verdict _ | .voteTimeout _ | .wdog _ | .preemption _
  | .resumption _ | .scrub _ _ | .versionSwitch _ _ | .purgeMark _ _ | .purgeAck _ _ | .queueTake _
  | .quantumExpiry _ _ | .slotRevocation _ _ | .loadRequest _ | .switchRequest _ | .unstageRequest _
  | .versionRemoval _ | .tableWalk _ | .pgfault _ _ | .fetch _ _ _ | .tlbShootdown _ | .migr _ _ _ _
  | .stubRemoval _ | .ntCombine _ | .clusterCacheEviction _ | .stashFill _ _ | .l2DecTedSwitch _
  | .l2SecDedReturn _ | .patrolRead _ _ _ | .coreRetire _ | .linkRetry _ _ | .linkFailure _ | .flitForward _
  | .bringUp _ _ | .powerThrottle _ | .mgPwrcapWrite _ | .mgPkgidWrite _ | .bstatClear _ _ | .debugHalt _
  | .debugResume _ | .debugStep _ _ | .debugRead _ _ | .dataInjection _ _ _ _ | .checkBitInjection _ _ _
  | .longResultWrite _ _ | .idleEnd _ _ | .svcAnswer _ _ _ | .illegalInstruction _ | .instanceDestroy _
  | .powerLoss | .routeChange _ _ | .writeBackAccepted _ => {}

/-- The page of a paged function (R86); 0 for the others. -/
def pageOf (i : Instr) : Nat :=
  match i with
  | .longSopen _ _ _ _ => 14
  | .longWpwait _ _ _ => 13
  | .longCtest _ _ _ _ => 12
  | .longCread _ _ _ _ => 11
  | .longCwait _ _ _ => 10
  | .longVlog2 _ _ _ _ | .sendReply _ _ _ _ => 9
  | .longVrsq _ _ _ _ | .sendArm _ _ _ _ => 8
  | .longVrcp _ _ _ _ | .sendCaddr _ _ _ _ => 7
  | .longVexp2 _ _ _ _ | .sendCadd _ _ _ _ => 6
  | .longFsqrt _ _ _ _ | .sendSpush _ _ _ _ => 5
  | .longFdiv _ _ _ _ | .sendCpush _ _ _ _ => 4
  | .vecAddi _ _ _ | .vecMuli _ _ _ | .vecMini _ _ _ | .vecMaxi _ _ _ | .vecCeqi _ _ _ | .vecClti _ _ _
  | .vecBci _ _ _ | .vecFmai _ _ _ | .longRemn _ _ _ _ | .sendMpush _ _ _ _ => 3
  | .vecCvt _ _ _ | .vecQnt _ _ _ | .vecDqnt _ _ _ | .vecPack _ _ _ | .vecUnpk _ _ _ | .vecLut _ _ _
  | .vecLdtb _ _ | .vecRnd _ _ _ | .longRem _ _ _ _ | .sendItem _ _ _ _ => 2
  | .ldV _ _ _ _ | .stV _ _ _ _ | .vecCeq _ _ _ | .vecClt _ _ _ | .vecCle _ _ _ | .vecSel _ _ _
  | .vecRsum _ _ _ | .vecRmax _ _ _ | .vecRmin _ _ _ | .vecPerm _ _ _ | .vecSld _ _ _ | .vecExt _ _ _
  | .vecIns _ _ _ | .vecDot _ _ _ | .vecIota _ _ _ | .longDivn _ _ _ _ | .sendQmsg _ _ _ _ => 1
  | .sysNop | .sysEnd | .sysEndP | .sysAbort | .sysBrk _ | .sysSvc _ | .sysRett | .sysIdle | .sysSplit
  | .sysFence _ | .sysFenceRel _ | .sysFenceAcq _ | .sysFenceDrain _ | .sysFenceIbar | .sysVtype _ _
  | .sysRep _ _ _ | .aluAdd _ _ _ | .aluSub _ _ _ | .aluAnd _ _ _ | .aluOr _ _ _ | .aluXor _ _ _
  | .aluShl _ _ _ | .aluShr _ _ _ | .aluSar _ _ _ | .aluMul _ _ _ | .aluMulh _ _ _ | .aluMulhn _ _ _
  | .aluMin _ _ _ | .aluMax _ _ _ | .aluMinn _ _ _ | .aluMaxn _ _ _ | .aluCmp _ _ _ | .aluiAddi _ _ _
  | .aluiAndi _ _ _ | .aluiOri _ _ _ | .aluiXori _ _ _ | .aluiShli _ _ _ | .aluiShri _ _ _ | .aluiSari _ _ _
  | .aluiMuli _ _ _ | .aluiCmpi _ _ _ | .aluiMini _ _ _ | .aluiMaxi _ _ _ | .aluiLda _ _ _ | .movi _ _ _
  | .ldap _ _ _ | .fpuFadd _ _ _ | .fpuFsub _ _ _ | .fpuFmul _ _ _ | .fpuFma _ _ _ | .fpuFmin _ _ _
  | .fpuFmax _ _ _ | .fpuFcmp _ _ _ | .fpuFabs _ _ _ | .fpuFneg _ _ _ | .fpuFcvti _ _ _ | .fpuFcvtf _ _ _
  | .fpuFcvt _ _ _ | .fpuFclass _ _ _ | .fpuFrnd _ _ _ | .fpuFscl _ _ _ | .brcB _ _ | .brcEq _ _ | .brcNe _ _
  | .brcLt _ _ | .brcGe _ _ | .brcGt _ _ | .brcLe _ _ | .brcLo _ _ | .brcHs _ _ | .brcHi _ _ | .brcLs _ _
  | .brcUn _ _ | .brcOr _ _ | .brcVs _ _ | .brcVc _ _ | .brcCall _ _ | .xferMov _ _ _ | .xferJr _ _
  | .xferCallr _ _ | .xferRet _ | .xferQcall _ _ | .xferMfs _ _ _ | .xferMts _ _ _ | .xferStart _ _ _
  | .xferJoinh _ _ | .xferCpl _ _ | .xferClz _ _ _ | .xferPopc _ _ _ | .xferBswap _ _ _ | .xferTst _ _ _
  | .xferPurge _ _ | .xferIinv _ _ _ | .ld _ _ _ _ | .st _ _ _ _ | .vecAdd _ _ _ | .vecSub _ _ _
  | .vecMul _ _ _ | .vecFma _ _ _ | .vecMin _ _ _ | .vecMax _ _ _ | .vecAnd _ _ _ | .vecOr _ _ _
  | .vecXor _ _ _ | .vecShl _ _ _ | .vecShr _ _ _ | .vecSar _ _ _ | .vecAbs _ _ _ | .vecNeg _ _ _
  | .vecMov _ _ _ | .vecBc _ _ _ | .longDiv _ _ _ _ | .sendMsg _ _ _ _ | .memSmap _ _ _ | .memSunmap _ _
  | .memSflush _ _ _ | .memSinv _ _ _ | .memSclose _ _ | .memLsclr _ _ _ | .asyncTrap _ | .mma _ | .mzero _
  | .mmask _ | .mout _ | .msig _ | .mlink _ | .mnop _ | .operandTileArrival _ _ | .skimmerFetch _ _
  | .mxuSave _ | .rectangleRepair _ | .ccopy _ _ | .ccopy2 _ _ | .cfill _ _ | .csig _ _ | .sectorDelivery _ _
  | .sectorAccepted _ _ | .nrd _ | .nwr _ | .nfl _ | .zdec _ | .csum _ | .storageCompletion _
  | .commandTimeout _ _ | .counterAdd _ | .armRegistration _ | .armEmission _ | .cwaitPoll _ _
  | .messageArrival _ | .spillRefill _ | .deliveryRetry _ | .dispatch _ | .itemAssign _ | .exportArrival _
  | .vote _ | .verdict _ | .voteTimeout _ | .wdog _ | .preemption _ | .resumption _ | .scrub _ _
  | .versionSwitch _ _ | .purgeMark _ _ | .purgeAck _ _ | .queueTake _ | .quantumExpiry _ _
  | .slotRevocation _ _ | .loadRequest _ | .switchRequest _ | .unstageRequest _ | .versionRemoval _
  | .tableWalk _ | .pgfault _ _ | .fetch _ _ _ | .tlbShootdown _ | .migr _ _ _ _ | .stubRemoval _
  | .ntCombine _ | .clusterCacheEviction _ | .stashFill _ _ | .l2DecTedSwitch _ | .l2SecDedReturn _
  | .patrolRead _ _ _ | .coreRetire _ | .linkRetry _ _ | .linkFailure _ | .flitForward _ | .bringUp _ _
  | .powerThrottle _ | .mgPwrcapWrite _ | .mgPkgidWrite _ | .bstatClear _ _ | .debugHalt _ | .debugResume _
  | .debugStep _ _ | .debugRead _ _ | .dataInjection _ _ _ _ | .checkBitInjection _ _ _
  | .longResultWrite _ _ | .idleEnd _ _ | .svcAnswer _ _ _ | .illegalInstruction _ | .instanceDestroy _
  | .powerLoss | .routeChange _ _ | .writeBackAccepted _ => 0

/-- The operand form of an instruction (R79, R80, R85, R142, R148, R160, R181). -/
def formOf (i : Instr) : Form :=
  match i with
  | .sysNop | .sysEnd | .sysEndP | .sysAbort | .sysBrk _ | .sysSvc _ | .sysRett | .sysIdle | .sysSplit
  | .sysFence _ | .sysFenceRel _ | .sysFenceAcq _ | .sysFenceDrain _ | .sysFenceIbar | .sysVtype _ _
  | .sysRep _ _ _ | .asyncTrap _ | .mma _ | .mzero _ | .mmask _ | .mout _ | .msig _ | .mlink _ | .mnop _
  | .operandTileArrival _ _ | .skimmerFetch _ _ | .mxuSave _ | .rectangleRepair _ | .ccopy _ _ | .ccopy2 _ _
  | .cfill _ _ | .csig _ _ | .sectorDelivery _ _ | .sectorAccepted _ _ | .nrd _ | .nwr _ | .nfl _ | .zdec _
  | .csum _ | .storageCompletion _ | .commandTimeout _ _ | .counterAdd _ | .armRegistration _
  | .armEmission _ | .cwaitPoll _ _ | .messageArrival _ | .spillRefill _ | .deliveryRetry _ | .dispatch _
  | .itemAssign _ | .exportArrival _ | .vote _ | .verdict _ | .voteTimeout _ | .wdog _ | .preemption _
  | .resumption _ | .scrub _ _ | .versionSwitch _ _ | .purgeMark _ _ | .purgeAck _ _ | .queueTake _
  | .quantumExpiry _ _ | .slotRevocation _ _ | .loadRequest _ | .switchRequest _ | .unstageRequest _
  | .versionRemoval _ | .tableWalk _ | .pgfault _ _ | .fetch _ _ _ | .tlbShootdown _ | .migr _ _ _ _
  | .stubRemoval _ | .ntCombine _ | .clusterCacheEviction _ | .stashFill _ _ | .l2DecTedSwitch _
  | .l2SecDedReturn _ | .patrolRead _ _ _ | .coreRetire _ | .linkRetry _ _ | .linkFailure _ | .flitForward _
  | .bringUp _ _ | .powerThrottle _ | .mgPwrcapWrite _ | .mgPkgidWrite _ | .bstatClear _ _ | .debugHalt _
  | .debugResume _ | .debugStep _ _ | .debugRead _ _ | .dataInjection _ _ _ _ | .checkBitInjection _ _ _
  | .longResultWrite _ _ | .idleEnd _ _ | .svcAnswer _ _ _ | .illegalInstruction _ | .instanceDestroy _
  | .powerLoss | .routeChange _ _ | .writeBackAccepted _ => .bare
  | .aluAdd _ _ _ | .aluSub _ _ _ | .aluAnd _ _ _ | .aluOr _ _ _ | .aluXor _ _ _ | .aluShl _ _ _
  | .aluShr _ _ _ | .aluSar _ _ _ | .aluMul _ _ _ | .aluMulh _ _ _ | .aluMulhn _ _ _ | .aluMin _ _ _
  | .aluMax _ _ _ | .aluMinn _ _ _ | .aluMaxn _ _ _ | .xferStart _ _ _ | .longDiv _ _ _ _ | .longDivn _ _ _ _
  | .longRem _ _ _ _ | .longRemn _ _ _ _ | .longCwait _ _ _ | .longWpwait _ _ _ | .sendCaddr _ _ _ _ => ⟨.w, .w, .w, .w, .w, 0x0⟩
  | .aluCmp _ _ _ | .xferTst _ _ _ | .longCtest _ _ _ _ | .sendMsg _ _ _ _ | .sendQmsg _ _ _ _
  | .sendItem _ _ _ _ | .sendMpush _ _ _ _ | .sendCpush _ _ _ _ | .sendCadd _ _ _ _ | .sendArm _ _ _ _
  | .sendReply _ _ _ _ => ⟨.w, .zero, .w, .w, .w, 0x0⟩
  | .aluiAddi _ _ _ | .aluiAndi _ _ _ | .aluiOri _ _ _ | .aluiXori _ _ _ | .aluiShli _ _ _ | .aluiShri _ _ _
  | .aluiSari _ _ _ | .aluiMuli _ _ _ | .aluiCmpi _ _ _ | .aluiMini _ _ _ | .aluiMaxi _ _ _ | .aluiLda _ _ _
  | .movi _ _ _ | .ldap _ _ _ => ⟨.w, .w, .imm, .imm, .zero, 0x0⟩
  | .fpuFadd _ _ _ | .fpuFsub _ _ _ | .fpuFmul _ _ _ | .fpuFma _ _ _ | .fpuFmin _ _ _ | .fpuFmax _ _ _
  | .fpuFscl _ _ _ | .longFdiv _ _ _ _ => ⟨.w, .w, .w, .w, .w, 0x3C00⟩
  | .fpuFcmp _ _ _ => ⟨.w, .zero, .w, .w, .w, 0x3C00⟩
  | .fpuFabs _ _ _ | .fpuFneg _ _ _ | .fpuFcvti _ _ _ | .fpuFcvtf _ _ _ | .fpuFclass _ _ _ | .fpuFrnd _ _ _
  | .longFsqrt _ _ _ _ => ⟨.w, .w, .w, .w, .zero, 0x3C00⟩
  | .fpuFcvt _ _ _ => ⟨.w, .w, .w, .w, .typ, 0x3F00⟩
  | .brcB _ _ | .brcEq _ _ | .brcNe _ _ | .brcLt _ _ | .brcGe _ _ | .brcGt _ _ | .brcLe _ _ | .brcLo _ _
  | .brcHs _ _ | .brcHi _ _ | .brcLs _ _ | .brcUn _ _ | .brcOr _ _ | .brcVs _ _ | .brcVc _ _ | .brcCall _ _ => ⟨.imm, .imm, .imm, .imm, .zero, 0x0⟩
  | .xferMov _ _ _ | .xferClz _ _ _ | .xferPopc _ _ _ | .xferBswap _ _ _ | .xferIinv _ _ _ | .ld _ _ _ _
  | .st _ _ _ _ | .longCread _ _ _ _ | .longSopen _ _ _ _ | .memSmap _ _ _ | .memSflush _ _ _
  | .memSinv _ _ _ | .memLsclr _ _ _ => ⟨.w, .w, .w, .w, .zero, 0x0⟩
  | .xferJr _ _ | .xferCallr _ _ | .xferQcall _ _ | .xferJoinh _ _ | .xferCpl _ _ | .xferPurge _ _ => ⟨.zero, .zero, .w, .w, .zero, 0x0⟩
  | .xferRet _ => ⟨.zero, .zero, .zero, .zero, .zero, 0x0⟩
  | .xferMfs _ _ _ | .xferMts _ _ _ => ⟨.w, .w, .num, .num, .zero, 0x0⟩
  | .ldV _ _ _ _ | .stV _ _ _ _ => ⟨.v, .v, .w, .w, .zero, 0x0⟩
  | .vecAdd _ _ _ | .vecSub _ _ _ | .vecMul _ _ _ | .vecFma _ _ _ | .vecMin _ _ _ | .vecMax _ _ _
  | .vecPerm _ _ _ => ⟨.v, .v, .v, .v, .v, 0x3FFF⟩
  | .vecAnd _ _ _ | .vecOr _ _ _ | .vecXor _ _ _ => ⟨.v, .v, .v, .v, .v, 0xFFFF⟩
  | .vecShl _ _ _ | .vecShr _ _ _ | .vecSar _ _ _ => ⟨.v, .v, .v, .v, .v, 0xFF⟩
  | .vecAbs _ _ _ | .vecNeg _ _ _ => ⟨.v, .v, .v, .v, .zero, 0x3FFF⟩
  | .vecMov _ _ _ => ⟨.v, .v, .v, .v, .zero, 0xFFFF⟩
  | .vecBc _ _ _ | .vecIota _ _ _ => ⟨.v, .v, .w, .w, .zero, 0x3FFF⟩
  | .vecCeq _ _ _ | .vecClt _ _ _ | .vecCle _ _ _ => ⟨.w, .w, .v, .v, .v, 0x3FFF⟩
  | .vecSel _ _ _ | .vecSld _ _ _ => ⟨.v, .v, .v, .v, .w, 0x3FFF⟩
  | .vecRsum _ _ _ | .vecRmax _ _ _ | .vecRmin _ _ _ => ⟨.w, .w, .v, .v, .zero, 0x3FFF⟩
  | .vecExt _ _ _ => ⟨.w, .w, .v, .v, .w, 0x3FFF⟩
  | .vecIns _ _ _ => ⟨.v, .v, .w, .w, .w, 0x3FFF⟩
  | .vecDot _ _ _ => ⟨.w, .w, .v, .v, .v, 0x3CFF⟩
  | .vecCvt _ _ _ => ⟨.v, .v, .v, .v, .typPart, 0x3FFF⟩
  | .vecQnt _ _ _ | .vecDqnt _ _ _ => ⟨.v, .v, .v, .v, .w, 0x8301⟩
  | .vecPack _ _ _ | .vecUnpk _ _ _ => ⟨.v, .v, .v, .v, .zero, 0x0⟩
  | .vecLut _ _ _ => ⟨.v, .v, .v, .v, .low1, 0x0⟩
  | .vecLdtb _ _ => ⟨.zero, .zero, .v, .v, .zero, 0x0⟩
  | .vecRnd _ _ _ => ⟨.v, .v, .v, .v, .zero, 0x3F00⟩
  | .vecAddi _ _ _ | .vecMuli _ _ _ | .vecMini _ _ _ | .vecMaxi _ _ _ | .vecFmai _ _ _ => ⟨.v, .v, .imm, .imm, .v, 0x3FFF⟩
  | .vecCeqi _ _ _ | .vecClti _ _ _ => ⟨.w, .w, .imm, .imm, .v, 0x3FFF⟩
  | .vecBci _ _ _ => ⟨.v, .v, .imm, .imm, .zero, 0x3FFF⟩
  | .longVexp2 _ _ _ _ | .longVrcp _ _ _ _ | .longVrsq _ _ _ _ | .longVlog2 _ _ _ _ => ⟨.v, .v, .v, .v, .zero, 0x3C00⟩
  | .sendSpush _ _ _ _ => ⟨.w, .zero, .zero, .w, .zero, 0x0⟩
  | .memSunmap _ _ | .memSclose _ _ => ⟨.w, .w, .zero, .zero, .zero, 0x0⟩

/-- Is the instruction one of the 173 base functions, which a chain of words encodes? -/
def isBase (i : Instr) : Bool :=
  match i with
  | .asyncTrap _ | .mma _ | .mzero _ | .mmask _ | .mout _ | .msig _ | .mlink _ | .mnop _
  | .operandTileArrival _ _ | .skimmerFetch _ _ | .mxuSave _ | .rectangleRepair _ | .ccopy _ _ | .ccopy2 _ _
  | .cfill _ _ | .csig _ _ | .sectorDelivery _ _ | .sectorAccepted _ _ | .nrd _ | .nwr _ | .nfl _ | .zdec _
  | .csum _ | .storageCompletion _ | .commandTimeout _ _ | .counterAdd _ | .armRegistration _
  | .armEmission _ | .cwaitPoll _ _ | .messageArrival _ | .spillRefill _ | .deliveryRetry _ | .dispatch _
  | .itemAssign _ | .exportArrival _ | .vote _ | .verdict _ | .voteTimeout _ | .wdog _ | .preemption _
  | .resumption _ | .scrub _ _ | .versionSwitch _ _ | .purgeMark _ _ | .purgeAck _ _ | .queueTake _
  | .quantumExpiry _ _ | .slotRevocation _ _ | .loadRequest _ | .switchRequest _ | .unstageRequest _
  | .versionRemoval _ | .tableWalk _ | .pgfault _ _ | .fetch _ _ _ | .tlbShootdown _ | .migr _ _ _ _
  | .stubRemoval _ | .ntCombine _ | .clusterCacheEviction _ | .stashFill _ _ | .l2DecTedSwitch _
  | .l2SecDedReturn _ | .patrolRead _ _ _ | .coreRetire _ | .linkRetry _ _ | .linkFailure _ | .flitForward _
  | .bringUp _ _ | .powerThrottle _ | .mgPwrcapWrite _ | .mgPkgidWrite _ | .bstatClear _ _ | .debugHalt _
  | .debugResume _ | .debugStep _ _ | .debugRead _ _ | .dataInjection _ _ _ _ | .checkBitInjection _ _ _
  | .longResultWrite _ _ | .idleEnd _ _ | .svcAnswer _ _ _ | .illegalInstruction _ | .instanceDestroy _
  | .powerLoss | .routeChange _ _ | .writeBackAccepted _ => false
  | .sysNop | .sysEnd | .sysEndP | .sysAbort | .sysBrk _ | .sysSvc _ | .sysRett | .sysIdle | .sysSplit
  | .sysFence _ | .sysFenceRel _ | .sysFenceAcq _ | .sysFenceDrain _ | .sysFenceIbar | .sysVtype _ _
  | .sysRep _ _ _ | .aluAdd _ _ _ | .aluSub _ _ _ | .aluAnd _ _ _ | .aluOr _ _ _ | .aluXor _ _ _
  | .aluShl _ _ _ | .aluShr _ _ _ | .aluSar _ _ _ | .aluMul _ _ _ | .aluMulh _ _ _ | .aluMulhn _ _ _
  | .aluMin _ _ _ | .aluMax _ _ _ | .aluMinn _ _ _ | .aluMaxn _ _ _ | .aluCmp _ _ _ | .aluiAddi _ _ _
  | .aluiAndi _ _ _ | .aluiOri _ _ _ | .aluiXori _ _ _ | .aluiShli _ _ _ | .aluiShri _ _ _ | .aluiSari _ _ _
  | .aluiMuli _ _ _ | .aluiCmpi _ _ _ | .aluiMini _ _ _ | .aluiMaxi _ _ _ | .aluiLda _ _ _ | .movi _ _ _
  | .ldap _ _ _ | .fpuFadd _ _ _ | .fpuFsub _ _ _ | .fpuFmul _ _ _ | .fpuFma _ _ _ | .fpuFmin _ _ _
  | .fpuFmax _ _ _ | .fpuFcmp _ _ _ | .fpuFabs _ _ _ | .fpuFneg _ _ _ | .fpuFcvti _ _ _ | .fpuFcvtf _ _ _
  | .fpuFcvt _ _ _ | .fpuFclass _ _ _ | .fpuFrnd _ _ _ | .fpuFscl _ _ _ | .brcB _ _ | .brcEq _ _ | .brcNe _ _
  | .brcLt _ _ | .brcGe _ _ | .brcGt _ _ | .brcLe _ _ | .brcLo _ _ | .brcHs _ _ | .brcHi _ _ | .brcLs _ _
  | .brcUn _ _ | .brcOr _ _ | .brcVs _ _ | .brcVc _ _ | .brcCall _ _ | .xferMov _ _ _ | .xferJr _ _
  | .xferCallr _ _ | .xferRet _ | .xferQcall _ _ | .xferMfs _ _ _ | .xferMts _ _ _ | .xferStart _ _ _
  | .xferJoinh _ _ | .xferCpl _ _ | .xferClz _ _ _ | .xferPopc _ _ _ | .xferBswap _ _ _ | .xferTst _ _ _
  | .xferPurge _ _ | .xferIinv _ _ _ | .ld _ _ _ _ | .ldV _ _ _ _ | .st _ _ _ _ | .stV _ _ _ _
  | .vecAdd _ _ _ | .vecSub _ _ _ | .vecMul _ _ _ | .vecFma _ _ _ | .vecMin _ _ _ | .vecMax _ _ _
  | .vecAnd _ _ _ | .vecOr _ _ _ | .vecXor _ _ _ | .vecShl _ _ _ | .vecShr _ _ _ | .vecSar _ _ _
  | .vecAbs _ _ _ | .vecNeg _ _ _ | .vecMov _ _ _ | .vecBc _ _ _ | .vecCeq _ _ _ | .vecClt _ _ _
  | .vecCle _ _ _ | .vecSel _ _ _ | .vecRsum _ _ _ | .vecRmax _ _ _ | .vecRmin _ _ _ | .vecPerm _ _ _
  | .vecSld _ _ _ | .vecExt _ _ _ | .vecIns _ _ _ | .vecDot _ _ _ | .vecIota _ _ _ | .vecCvt _ _ _
  | .vecQnt _ _ _ | .vecDqnt _ _ _ | .vecPack _ _ _ | .vecUnpk _ _ _ | .vecLut _ _ _ | .vecLdtb _ _
  | .vecRnd _ _ _ | .vecAddi _ _ _ | .vecMuli _ _ _ | .vecMini _ _ _ | .vecMaxi _ _ _ | .vecCeqi _ _ _
  | .vecClti _ _ _ | .vecBci _ _ _ | .vecFmai _ _ _ | .longDiv _ _ _ _ | .longDivn _ _ _ _ | .longRem _ _ _ _
  | .longRemn _ _ _ _ | .longFdiv _ _ _ _ | .longFsqrt _ _ _ _ | .longVexp2 _ _ _ _ | .longVrcp _ _ _ _
  | .longVrsq _ _ _ _ | .longVlog2 _ _ _ _ | .longCwait _ _ _ | .longCread _ _ _ _ | .longCtest _ _ _ _
  | .longWpwait _ _ _ | .longSopen _ _ _ _ | .sendMsg _ _ _ _ | .sendQmsg _ _ _ _ | .sendItem _ _ _ _
  | .sendMpush _ _ _ _ | .sendCpush _ _ _ _ | .sendSpush _ _ _ _ | .sendCadd _ _ _ _ | .sendCaddr _ _ _ _
  | .sendArm _ _ _ _ | .sendReply _ _ _ _ | .memSmap _ _ _ | .memSunmap _ _ | .memSflush _ _ _
  | .memSinv _ _ _ | .memSclose _ _ | .memLsclr _ _ _ => true

/-- The page that a chain names (R86). -/
def pageNum (p : Pre) : Nat := match p.page with | some n => n.toNat | none => 0

/-- The function that a major opcode, a page and the fields of the base word select (R91): a, b and the last field, or a and eight
bits; none: unassigned. Field values of the base word that must be 0 are checked by the decoder. -/
def selectAt (p : Pre) (maj : Nat) (a b l : BitVec 4) (i8 : BitVec 8) (pg : Nat) : Option Instr :=
  match maj with
  | 0 =>
    match a.toNat, b.toNat with
    | 0, 0 => some .sysNop
    | 0, 1 => some .sysEnd
    | 0, 2 => some .sysEndP
    | 0, 3 => some .sysAbort
    | 0, 4 => some (.sysBrk l)
    | 0, 5 => some (.sysSvc l)
    | 0, 6 => some .sysRett
    | 0, 7 => some .sysIdle
    | 0, 8 => some .sysSplit
    | 1, 0 => some (.sysFence l)
    | 1, 1 => some (.sysFenceRel l)
    | 1, 2 => some (.sysFenceAcq l)
    | 1, 3 => some (.sysFenceDrain l)
    | 1, 4 => some .sysFenceIbar
    | 2, _ => some (.sysVtype b l)
    | 3, _ => some (.sysRep p b l)
    | _, _ => none
  | 1 =>
    match l.toNat with
    | 0 => some (.aluAdd p a b)
    | 1 => some (.aluSub p a b)
    | 2 => some (.aluAnd p a b)
    | 3 => some (.aluOr p a b)
    | 4 => some (.aluXor p a b)
    | 5 => some (.aluShl p a b)
    | 6 => some (.aluShr p a b)
    | 7 => some (.aluSar p a b)
    | 8 => some (.aluMul p a b)
    | 9 => some (.aluMulh p a b)
    | 10 => some (.aluMulhn p a b)
    | 11 => some (.aluMin p a b)
    | 12 => some (.aluMax p a b)
    | 13 => some (.aluMinn p a b)
    | 14 => some (.aluMaxn p a b)
    | 15 => some (.aluCmp p a b)
    | _ => none
  | 2 =>
    match b.toNat with
    | 0 => some (.aluiAddi p a l)
    | 1 => some (.aluiAndi p a l)
    | 2 => some (.aluiOri p a l)
    | 3 => some (.aluiXori p a l)
    | 4 => some (.aluiShli p a l)
    | 5 => some (.aluiShri p a l)
    | 6 => some (.aluiSari p a l)
    | 7 => some (.aluiMuli p a l)
    | 8 => some (.aluiCmpi p a l)
    | 9 => some (.aluiMini p a l)
    | 10 => some (.aluiMaxi p a l)
    | 11 => some (.aluiLda p a l)
    | _ => none
  | 3 => some (.movi p a i8)
  | 4 =>
    match l.toNat with
    | 0 => some (.fpuFadd p a b)
    | 1 => some (.fpuFsub p a b)
    | 2 => some (.fpuFmul p a b)
    | 3 => some (.fpuFma p a b)
    | 4 => some (.fpuFmin p a b)
    | 5 => some (.fpuFmax p a b)
    | 6 => some (.fpuFcmp p a b)
    | 7 => some (.fpuFabs p a b)
    | 8 => some (.fpuFneg p a b)
    | 9 => some (.fpuFcvti p a b)
    | 10 => some (.fpuFcvtf p a b)
    | 11 => some (.fpuFcvt p a b)
    | 12 => some (.fpuFclass p a b)
    | 13 => some (.fpuFrnd p a b)
    | 14 => some (.fpuFscl p a b)
    | _ => none
  | 5 =>
    match a.toNat with
    | 0 => some (.brcB p i8)
    | 1 => some (.brcEq p i8)
    | 2 => some (.brcNe p i8)
    | 3 => some (.brcLt p i8)
    | 4 => some (.brcGe p i8)
    | 5 => some (.brcGt p i8)
    | 6 => some (.brcLe p i8)
    | 7 => some (.brcLo p i8)
    | 8 => some (.brcHs p i8)
    | 9 => some (.brcHi p i8)
    | 10 => some (.brcLs p i8)
    | 11 => some (.brcUn p i8)
    | 12 => some (.brcOr p i8)
    | 13 => some (.brcVs p i8)
    | 14 => some (.brcVc p i8)
    | 15 => some (.brcCall p i8)
    | _ => none
  | 6 => some (.ldap p a i8)
  | 7 =>
    match l.toNat with
    | 0 => some (.xferMov p a b)
    | 1 => some (.xferJr p b)
    | 2 => some (.xferCallr p b)
    | 3 => some (.xferRet p)
    | 4 => some (.xferQcall p b)
    | 5 => some (.xferMfs p a b)
    | 6 => some (.xferMts p a b)
    | 7 => some (.xferStart p a b)
    | 8 => some (.xferJoinh p b)
    | 9 => some (.xferCpl p b)
    | 10 => some (.xferClz p a b)
    | 11 => some (.xferPopc p a b)
    | 12 => some (.xferBswap p a b)
    | 13 => some (.xferTst p a b)
    | 14 => some (.xferPurge p b)
    | 15 => some (.xferIinv p a b)
    | _ => none
  | 8 =>
    match pg with
    | 0 => some (.ld p a b l)
    | 1 => some (.ldV p a b l)
    | _ => none
  | 9 =>
    match pg with
    | 0 => some (.st p a b l)
    | 1 => some (.stV p a b l)
    | _ => none
  | 10 =>
    match pg, l.toNat with
    | 0, 0 => some (.vecAdd p a b)
    | 0, 1 => some (.vecSub p a b)
    | 0, 2 => some (.vecMul p a b)
    | 0, 3 => some (.vecFma p a b)
    | 0, 4 => some (.vecMin p a b)
    | 0, 5 => some (.vecMax p a b)
    | 0, 6 => some (.vecAnd p a b)
    | 0, 7 => some (.vecOr p a b)
    | 0, 8 => some (.vecXor p a b)
    | 0, 9 => some (.vecShl p a b)
    | 0, 10 => some (.vecShr p a b)
    | 0, 11 => some (.vecSar p a b)
    | 0, 12 => some (.vecAbs p a b)
    | 0, 13 => some (.vecNeg p a b)
    | 0, 14 => some (.vecMov p a b)
    | 0, 15 => some (.vecBc p a b)
    | 1, 0 => some (.vecCeq p a b)
    | 1, 1 => some (.vecClt p a b)
    | 1, 2 => some (.vecCle p a b)
    | 1, 3 => some (.vecSel p a b)
    | 1, 4 => some (.vecRsum p a b)
    | 1, 5 => some (.vecRmax p a b)
    | 1, 6 => some (.vecRmin p a b)
    | 1, 7 => some (.vecPerm p a b)
    | 1, 8 => some (.vecSld p a b)
    | 1, 9 => some (.vecExt p a b)
    | 1, 10 => some (.vecIns p a b)
    | 1, 11 => some (.vecDot p a b)
    | 1, 12 => some (.vecIota p a b)
    | 2, 0 => some (.vecCvt p a b)
    | 2, 1 => some (.vecQnt p a b)
    | 2, 2 => some (.vecDqnt p a b)
    | 2, 3 => some (.vecPack p a b)
    | 2, 4 => some (.vecUnpk p a b)
    | 2, 5 => some (.vecLut p a b)
    | 2, 6 => some (.vecLdtb p b)
    | 2, 7 => some (.vecRnd p a b)
    | 3, 0 => some (.vecAddi p a b)
    | 3, 1 => some (.vecMuli p a b)
    | 3, 2 => some (.vecMini p a b)
    | 3, 3 => some (.vecMaxi p a b)
    | 3, 4 => some (.vecCeqi p a b)
    | 3, 5 => some (.vecClti p a b)
    | 3, 6 => some (.vecBci p a b)
    | 3, 7 => some (.vecFmai p a b)
    | _, _ => none
  | 11 =>
    match pg with
    | 0 => some (.longDiv p a b l)
    | 1 => some (.longDivn p a b l)
    | 2 => some (.longRem p a b l)
    | 3 => some (.longRemn p a b l)
    | 4 => some (.longFdiv p a b l)
    | 5 => some (.longFsqrt p a b l)
    | 6 => some (.longVexp2 p a b l)
    | 7 => some (.longVrcp p a b l)
    | 8 => some (.longVrsq p a b l)
    | 9 => some (.longVlog2 p a b l)
    | 10 => some (.longCwait p a b)
    | 11 => some (.longCread p a b l)
    | 12 => some (.longCtest p a b l)
    | 13 => some (.longWpwait p a b)
    | 14 => some (.longSopen p a b l)
    | _ => none
  | 12 =>
    match pg with
    | 0 => some (.sendMsg p a b l)
    | 1 => some (.sendQmsg p a b l)
    | 2 => some (.sendItem p a b l)
    | 3 => some (.sendMpush p a b l)
    | 4 => some (.sendCpush p a b l)
    | 5 => some (.sendSpush p a b l)
    | 6 => some (.sendCadd p a b l)
    | 7 => some (.sendCaddr p a b l)
    | 8 => some (.sendArm p a b l)
    | 9 => some (.sendReply p a b l)
    | _ => none
  | 13 =>
    match l.toNat with
    | 0 => some (.memSmap p a b)
    | 1 => some (.memSunmap p a)
    | 2 => some (.memSflush p a b)
    | 3 => some (.memSinv p a b)
    | 4 => some (.memSclose p a)
    | 5 => some (.memLsclr p a b)
    | _ => none
  | _ => none

/-- The function that a base word selects with these prefixes (R91). -/
def select (p : Pre) (w : Half) : Option Instr :=
  selectAt p (w.extractLsb' 12 4).toNat (w.extractLsb' 8 4) (w.extractLsb' 4 4) (w.extractLsb' 0 4) (w.extractLsb' 0 8) (pageNum p)

/-- How many prefix words a chain with these prefixes has. -/
def preLen (p : Pre) : Nat :=
  p.imms.length + b2n p.reg.isSome + b2n p.page.isSome + b2n p.fwd.isSome + b2n p.qual.isSome

/-- The major opcode of an instruction (R75). -/
def majorOf (i : Instr) : Nat := ((baseWord i).extractLsb' 12 4).toNat

/-- A register field read in its role: the must-be-zero bits of the field of the base word. -/
def Role.fieldOk (r : Role) (x : BitVec 4) : Bool :=
  match r with
  | .zero => x == 0
  | .v => !x.getLsbD 3
  | .w | .imm | .num | .typ | .typPart | .low1 => true

/-- The must-be-zero bits of a high part (R79, R80). -/
def Role.highOk (r : Role) (h : BitVec 2) : Bool :=
  match r with
  | .zero | .imm => h == 0
  | .v => !h.getLsbD 1
  | .w | .num | .typ | .typPart | .low1 => true

/-- The must-be-zero bits of the c field (R80, R142, R151, R157). -/
def Role.cOk (r : Role) (c : BitVec 6) : Bool :=
  match r with
  | .w | .typPart => true
  | .v | .typ => c.toNat < 16
  | .low1 => c.toNat < 2
  | .zero | .imm | .num => c == 0

/-- PFX.R in this form has only legal bits. -/
def Form.regOk (f : Form) (x : RegExt) : Bool :=
  f.aR.highOk x.aHi && f.bR.highOk x.bHi && f.c.cOk x.c

/-- The most PFX.I words a function accepts (R84). -/
def immLimit (i : Instr) : Nat :=
  match majorOf i, i with
  | 0, .sysRep _ _ _ => 3
  | 2, _ | 3, _ | 5, _ | 6, _ | 8, _ | 9, _ => 4
  | 10, _ => if pageOf i = 3 then 1 else 0
  | _, _ => 0

/-- Does the function accept PFX.R (R91)? -/
def takesReg (maj : Nat) : Bool := maj != 0 && maj != 5

/-- Does the function accept PFX.O (R86)? -/
def takesPage (maj : Nat) : Bool := maj == 8 || maj == 9 || maj == 10 || maj == 11 || maj == 12

/-- Does the function accept PFX.F (R91)? -/
def takesFwd (maj : Nat) : Bool := maj != 0 && maj != 2 && maj != 3 && maj != 5 && maj != 6

/-- Does the function accept PFX.Q (R88, R89, R418)? -/
def takesQual (maj pg : Nat) : Bool :=
  maj == 4 || maj == 8 || maj == 9 || maj == 10 || (maj == 11 && 4 ≤ pg && pg ≤ 9)

/-- PFX.Q as a memory qualifier is legal (R88, R131). -/
def memQualOk (maj pg : Nat) (q : Qual) : Bool :=
  q.scope.toNat ≤ 4 && !(q.nt && q.order != 0) &&
  (if maj == 8 then q.order != 2 && !q.nt else q.order != 3) &&
  (pg != 0 || q.et.toNat < 14)

/-- PFX.Q as a type and rounding qualifier: scope and nt are 0 (R89). -/
def typeQualZero (q : Qual) : Bool := q.scope == 0 && !q.nt

/-- PFX.Q is legal for this instruction. -/
def qualOk (i : Instr) (q : Qual) : Bool :=
  let m := majorOf i
  takesQual m (pageOf i) &&
  (if m == 8 || m == 9 then memQualOk m (pageOf i) q
   else typeQualZero q && (formOf i).types.testBit q.et.toNat)

/-- PFX.F is legal at decode for this instruction (R87, R418). -/
def fwdOk (i : Instr) (f : Fwd) : Bool :=
  let m := majorOf i
  takesFwd m && f.k != 0 && (!f.onC || ((preOf i).reg.isSome && m != 8 && m != 9))

/-- The fields of the base word that must be 0 (R79, R80, R91, R109, R196). -/
def baseOk (i : Instr) : Bool :=
  let w := baseWord i
  let f := formOf i
  let r := (preOf i).reg.isSome
  (if r then f.aR else f.a).fieldOk (w.extractLsb' 8 4) &&
  (if r then f.bR else f.b).fieldOk (w.extractLsb' 4 4) &&
  (match i with
   | .sysVtype t y => t == 15 || y == 0
   | _ => true)

/-- A base function that a legal chain encodes. -/
def chainOk (i : Instr) : Bool :=
  let p := preOf i
  let m := majorOf i
  preLen p ≤ 4 && p.imms.length ≤ immLimit i &&
  (match p.reg with | none => true | some x => takesReg m && (formOf i).regOk x) &&
  (match p.page with | none => pageOf i == 0 | some n => takesPage m && n.toNat == pageOf i) &&
  (match p.fwd with | none => true | some f => fwdOk i f) &&
  (match p.qual with | none => true | some q => qualOk i q) &&
  baseOk i

/-- A logical core id (R1). -/
def coreOk (k : Nat) : Bool := k < 16384

/-- The numbers of an event name parts that exist: cores, contexts, channels, system registers, dies. -/
def eventOk (i : Instr) : Bool :=
  match i with
  | .asyncTrap k | .mma k | .mzero k | .mmask k | .mout k | .msig k | .mlink k | .mnop k | .mxuSave k
  | .rectangleRepair k | .spillRefill k | .dispatch k | .wdog k | .preemption k | .resumption k | .coreRetire ⟨k, _⟩
  | .debugHalt k | .debugResume ⟨k, _⟩ | .operandTileArrival k _ | .skimmerFetch k _ | .scrub k _ | .versionSwitch k _
  | .purgeMark k _ | .purgeAck k _ | .quantumExpiry k _ | .debugRead k _ | .dataInjection k _ _ _
  | .checkBitInjection k _ _ => coreOk k
  | .slotRevocation k slot => coreOk k && slot < 1024
  | .ccopy k ch | .ccopy2 k ch | .cfill k ch | .csig k ch | .sectorDelivery k ch | .sectorAccepted k ch =>
    coreOk k && ch < 4
  | .cwaitPoll k h | .debugStep k h | .longResultWrite k h | .idleEnd k h | .stashFill k h | .fetch k h _
  | .svcAnswer k h _ => coreOk k && h < 11
  | .l2DecTedSwitch d | .l2SecDedReturn d | .migr _ _ d _ => d < 4
  | .illegalInstruction e => 1 ≤ e.reason.toNat && e.reason.toNat ≤ 9
  | _ => true

end Sys2Proof.Machine
end

