-- ==== Sys2Proof/Config.lean ====
section
/-! DEFINITION. What an implementation fixes and what the spec leaves free. A constant without a body is a free
value: no proof can see what it is (notes/assumptions/4.md). -/

namespace Sys2Proof.Config

/-- Silicon revision of MG_ID (R402): the first production revision. -/
def revision : Nat := 1

/-- Feature bits of the device (R336): 0 to 7. -/
def features : Nat := 0xFF

/-- Free: does the read of a lookahead window see the new value? Arguments: the issue counter and the index of the
outstanding result (R31). -/
opaque windowNew : Nat → Nat → Bool

/-- Free: 64 fresh random bits (RAND, R27), by the model's counter of free values. -/
opaque freeWord : Nat → Word

/-- Free: nanoseconds of package time that have passed between two reads (TIME, R27). -/
opaque elapsed : Nat → Nat

/-- Free: where R7 allows the old or the new value of a byte or word, is it the new one? Arguments: the counter of free
values and the address. -/
opaque takesNew : Nat → Nat → Bool

/-- Free: the set of the L2 slice that a line of 256 bytes of physical memory falls into, numbered over all slices (R276): the spec gives
no mapping. -/
opaque l2Set : Nat → Nat

/-- Free: which of the values that R138 allows a byte holds after its window is closed: the counter of free values and the address. -/
opaque whichValue : Nat → Nat → Nat

/-- Free: how many bytes of the output a failed storage command has written, and which (R208, R7). -/
opaque partialByte : Nat → Nat → Bool

/-- Free: a byte of the partial output of a failed storage command (R208). -/
opaque partialData : Nat → Nat → Byte

/-- Free: the NVMe status that a device reports with an error (R207). -/
opaque nvmeStatus : Nat → Nat

/-- Free: BYTES of a failed storage command's status slot (R208). -/
opaque partialCount : Nat → Nat

/-- Free: SUM of a command that computes none or has failed before it computed one (R208). -/
opaque freeSum : Nat → Word

/-- Free: a byte that a copy reads from another package's memory (R200), by the counter of free values and the address. -/
opaque remoteByte : Nat → Nat → Byte

/-- Free: does the port of another package refuse the traffic (R203, R401)? By the counter of free values and the package. -/
opaque remoteRefuses : Nat → Nat → Bool

/-- Free: does an add to a counter of another package saturate there (R184, R220)? By the counter of free values and the address. -/
opaque remoteOverflows : Nat → Nat → Bool

/-- Free: entries of the spill queue of a core beyond the first (R229): Klogar allocates its memory. -/
opaque spillSlots : Nat

/-- Free: where Klogar re-places an instance that loses a core (R413), by the counter of free values and the instance: its
rectangles (origin, rows minus 1, columns minus 1) and the secondaries of its cores. -/
opaque replacement : Nat → Nat → List (Nat × Nat × Nat) × List (Nat × List Nat)

/-- Free: CAUSE of the error record of a message that goes to Klogar (R228, R331, R401): the spec gives the record and no code. -/
opaque passedCause : Nat

/-- Free: how the root ports run (R395): as 4×x16, 8×x8 or 16×x4, which bring-up fixes. -/
opaque portMode : Nat

/-- Free: the entries of an NVMe submission ring (R204, R395). -/
opaque ringSlots : Nat

/-- Free: the bytes of a storage command's dictionary (R207): a command gives its address only. Arguments: the pusher's activation number and
the address. -/
opaque dictBytes : Nat → Nat → Nat

/-- Free: the temperature of the hottest die in °C (R402), by the counter of free values. -/
opaque hottest : Nat → Nat

/-- Free: has a row corrected errors repeatedly, so that a spare replaces it (R412)? By the counter of free values and the unit. -/
opaque repeated : Nat → Nat → Bool

/-- Free: how Klogar runs the PKL port (R399): as 1×16, 2×8 or 4×4 sub-ports. -/
opaque subPorts : Nat

/-- Free: the syndrome in the record of a corrected or uncorrectable event (R409), by the counter of free values. -/
opaque syndrome : Nat → Word

end Sys2Proof.Config
end

