-- ==== Sys2Proof/Machine/State.lean ====
section
/-! DEFINITION. The state of the machine as plain data (spec/00 to spec/16; INVENTORY.md lists every field with its rule and its
reset value), the reasons a step can stop, and the state after reset. -/

namespace Sys2Proof.Machine

/-- Bytes by address, addresses strictly rising, no entry equal to 0, which is what an unlisted address reads as (R22, R340;
for home memory notes/assumptions/2.md). -/
abbrev Memory := List Host.Cell

/-! ## One context (R14, R27) -/

/-- An outstanding long result (R30): the local store bytes it writes, or the five flags (R195), and how many window
instructions may still issue before it is written. -/
structure Long where
  addr  : Nat
  bytes : List Byte
  flags : Option (BitVec 5)
  left  : Nat
  /-- It is written; its window is still open (R31, R33). -/
  written : Bool := false
  deriving DecidableEq, Repr

/-- Why a live context does not issue (R15). -/
inductive Wait
  /-- nothing -/
  | none
  /-- `sys.idle` (R108) -/
  | idle
  /-- `long.cwait` on a counter and a threshold (R196) -/
  | cwait (va th : Nat)
  /-- `long.wpwait` on a channel and a threshold (R196) -/
  | wpwait (ch th : Nat)
  /-- `xfer.joinh` of a helper, 0 for all (R210); the control context's END waits so too (R102) -/
  | joinh (h : Nat)
  /-- `xfer.start` while ten helpers are live (R209) -/
  | slot
  /-- `xfer.cpl`, arrived and not coupled (R211) -/
  | cpl
  /-- held at a trap while another context has WP = TWP (R29) -/
  | held
  /-- a stash sector that is not valid, by its local store address (R133) -/
  | fill (a : Nat)
  /-- a data fault on a store, by global virtual address (R368, R391) -/
  | dataFault (va : Nat)
  /-- its own write-backs, not yet accepted (R138, R217, R254) -/
  | accept
  /-- its own non-temporal stores within a scope, not yet accepted (R217) -/
  | drain (scope : Nat)
  /-- its own copies and messages to other packages (R217) -/
  | remote
  /-- Klogar's answer to a service (R106) -/
  | svc (code : Nat)
  /-- a free entry of the MXU queue (R198) -/
  | mxuRoom
  /-- a free entry of a copy channel (R199) -/
  | chanRoom (ch : Nat)
  /-- MXU commands that read the lut4 code table (R60) -/
  | mxuLut
  /-- MXU commands that name these local store bytes (R133) -/
  | mxuBytes (lo n : Nat)
  /-- MXU and copy commands that name bytes of a window's range (R137) -/
  | engines (lo n : Nat)
  /-- a verdict (R311) -/
  | verdict
  /-- acknowledgements of a purge mark (R214) -/
  | purge
  /-- a forwarded source that is EMPTY: distance and register (R240) -/
  | forward (k n : Nat)
  /-- free entries of the holding buffer (R247) -/
  | holding
  /-- a MEM instruction that another context of the core issued before (R140) -/
  | mem
  /-- W[15], which a pass that ends counts down (R111), is poisoned: no context is left with this -/
  | count (a : Nat)
  /-- a leader-sourced value that the primary has not read yet (R301) -/
  | leader
  /-- an instruction fetch fault (R393) -/
  | fetch (va : Nat)
  deriving DecidableEq, Repr

/-- Where a context stood in the middle of an instruction that has made its commit point: what a rollback goes on from in place of its
snapshot record (R250). -/
structure Mid where
  pc    : Word
  stage : Nat
  ops   : List Nat
  wait  : Wait
  repst : Word
  /-- W[15], which the end of the instruction may count down (R111). -/
  w15   : Nat
  longs : List Long
  /-- The snapshot is that of the instruction's own commit point: once the instruction is done, the record is where the context stands. -/
  own   : Bool
  deriving DecidableEq, Repr

/-- One of the eleven contexts of a core. -/
structure Ctx where
  live     : Bool := false
  pc       : Word := 0
  wp       : Word := 0
  flg      : Word := 0x80C00
  repst    : Word := 0
  modv     : BitVec 16 := 0
  wait     : Wait := .none
  /-- How far the instruction at pc has come: 0 not begun, then the number of its parts that are done (a commit point made, a
  verdict received, write-backs started). -/
  stage    : Nat := 0
  /-- The operands of an instruction that has begun and is not done, as its issue read them (R10). -/
  ops      : List Nat := []
  longs    : List Long := []
  inTrap   : Bool := false
  /-- The trap handlers that the running one has interrupted (R219, R221). -/
  outer    : Nat := 0
  /-- A trap that is held until another context has left the trap workspace (R29): cause and value. -/
  heldTrap : Option (Nat × Nat) := none
  priv     : Bool := false
  /-- The snapshot record (R24), bytes 0 to 1,567. -/
  snap     : Option Memory := none
  snapTrap : Bool := false
  snapOuter : Nat := 0
  /-- Where it stood in the middle of an instruction. -/
  mid      : Option Mid := none
  /-- It is uncorrectable (R408). -/
  snapBad  : Bool := false
  /-- The long results that were outstanding when it was taken (R24, R30). -/
  snapLongs : List Long := []
  /-- The record taken with a vote, before its verdict (R311). -/
  cand     : Option Memory := none
  firstSeg : Bool := false
  replays  : Nat := 0
  /-- The store journal (R313): aligned doublewords with their old bytes, the latest first. -/
  journal  : List (Nat × List Byte) := []
  /-- The event records of the open segment (R305, R306). -/
  records  : List (BitVec 256) := []
  startPc  : Word := 0
  startWp  : Word := 0
  /-- The granules of UEs for which the open segment has been rolled back (R408). -/
  ueAt     : List Nat := []
  /-- The acquire of the instruction's forwarded source has been made (R240). -/
  acquired : Bool := false
  /-- Instruction words fetched, by global virtual address, that an `xfer.iinv` has not reached yet (R129, R218). -/
  fetched  : List (Nat × Half) := []
  /-- Leader-sourced values in program order (R301): on the primary those it has read, and on every replica how many it has used,
  now and at its snapshot. -/
  leadLog  : List Nat := []
  leadPos  : Nat := 0
  leadSnap : Nat := 0
  deriving DecidableEq, Repr

/-! ## One activation (R225, R334) -/

/-- A message (R188): header, tuple, the stream of a `send.item` that has no index yet (R190), and for a queue request its
queue and TAG (R328). -/
structure Msg where
  hdr  : BitVec 128
  t0   : Word
  t1   : Word
  strm : Option Nat := none
  req  : Option (Nat × Word) := none
  /-- It is Klogar's (R421). -/
  klogar : Bool := false
  /-- Its activation returned to PENDING: the replay count kept with it (R315), the granules of UEs for which its first
  segment was rolled back (R408), and whether it is marked for the newest version (R381). -/
  replays  : Nat := 0
  ueAt     : List Nat := []
  toNewest : Bool := false
  /-- The number under which its activation ran before it returned to PENDING (R331), and whether the completion of its request is
  written (R329). -/
  ran      : Option Nat := none
  done     : Bool := false
  /-- For a message that an arm sent: the scope of the acquire that its dispatch makes (R293). -/
  acq      : Option Nat := none
  deriving DecidableEq, Repr

/-- What a held output is (R249). -/
inductive Output
  /-- a message in outgoing form (R182) -/
  | msg (m : Msg)
  /-- a reply to a queue request; PRI holds its class (R192, R329) -/
  | reply (m : Msg)
  /-- an arm: counter, threshold, message (R193) -/
  | arm (va th : Nat) (m : Msg)
  /-- a counter add (R194) -/
  | add (va inc : Nat)
  /-- a non-temporal store: global virtual address and bytes (R246) -/
  | nt (va : Nat) (bytes : List Byte)
  /-- bytes that a segment stored in a stash window which another context's MEM instruction has unmapped since (R140, R244) -/
  | stash (va : Nat) (bytes : List Byte)
  deriving DecidableEq, Repr

/-- A held output with the context that holds it. -/
structure Held where
  ctx : Nat
  out : Output
  /-- An uncorrectable error stands in its entry (R407, R408). -/
  bad : Bool := false
  /-- Its place in the send order of the core (R400). -/
  seq : Nat := 0
  deriving DecidableEq, Repr

/-- An asynchronous cause with its value (R220); in PAIR and TRIAD modes whether an agreeing verdict has followed it (R321). -/
structure Cause where
  code  : Nat
  value : Nat
  due   : Bool := false
  deriving DecidableEq, Repr

/-- A stage declaration (R237). -/
structure Stage where
  strm     : Nat
  vtag     : Nat := 0
  type     : Nat
  exports  : List Nat
  k        : Nat
  defaults : List Word
  group    : List Nat
  deriving DecidableEq, Repr

/-- The states of the activation table of R225 that last. -/
inductive ActState
  | running
  | joining
  | preempted (joining : Bool)
  deriving DecidableEq, Repr

/-- The running activation of a core. -/
structure Act where
  st        : ActState := .running
  inst      : Nat
  vtag      : Nat
  nw        : Nat
  nv        : Nat
  stk       : Nat := 0
  redm      : Nat := 0
  rplc      : Nat := 0
  group     : List Nat := []
  item      : Nat := 0
  strm      : Nat := 0xFFFF
  source    : Nat := 1
  actlim    : Nat := 0
  wdogCount : Nat := 0
  wdogOnce  : Bool := false
  /-- The triggering message in delivered form. -/
  trig      : Msg
  /-- The NI still retains it: no commit point yet (R225). -/
  retained  : Bool := true
  klogar    : Bool := false
  replied   : Bool := false
  /-- The context whose open segment holds the first `send.reply` (R192, R250); none: it has committed, or there is none. -/
  replySeg  : Option Nat := none
  /-- The request's completion is written (R329). -/
  completed : Bool := false
  redeliver : Bool := false
  held      : List Held := []
  pending   : List Cause := []
  stage     : Option Stage := none
  deriving DecidableEq, Repr

/-! ## One core (R14 to R29, R227 to R240) -/

/-- A mapped stash window (R136, R244): sectors numbered from the window's base; tagged bytes by local store address with
the context whose segment wrote them. -/
structure Win where
  base   : Nat
  len    : Nat
  va     : Nat
  valid  : List Nat := []
  tagged : List (Nat × Nat) := []
  /-- It was mapped by a secondary: its sectors are shadow copies, outside the snoop filter (R303). -/
  shadow : Bool := false
  /-- The fills since the mapping in PAIR and TRIAD modes, by sector with the bytes that arrived: a secondary takes its n-th fill of a
  sector from the primary's n-th (R301). -/
  fills  : List (Nat × List Byte) := []
  /-- Values that bytes of the range held earlier, by local store address (R138). -/
  earlier : List (Nat × Byte) := []
  deriving DecidableEq, Repr

/-- A queued copy command (R199): who pushed it, whether its segment has committed, whether it has begun, sectors done. -/
structure CopyCmd where
  cmd       : Cmd
  ctx       : Nat
  inst      : Nat
  stamp     : Nat
  committed : Bool := false
  begun     : Bool := false
  done      : Nat := 0
  /-- The secondaries of the activation that pushed it, which its sectors are mirrored to (R302). -/
  seconds   : List Nat := []
  /-- Source bytes of an outbound command as the channel may have read them since its commit (R202, R7). -/
  olds      : List (Nat × Byte) := []
  /-- Bytes of the next inbound sector that have landed before the write pointer covers them (R261, R7). -/
  early     : List (Nat × Byte) := []
  /-- Its place in the send order of the core (R400). -/
  seq       : Nat := 0
  /-- An uncorrectable error stands in its entry (R405, R417). -/
  bad       : Bool := false
  deriving DecidableEq, Repr

/-- A storage command (R204): who pushed it. -/
structure StoCmd where
  cmd   : Cmd
  core  : Nat
  ctx   : Nat
  inst  : Nat
  asid  : Nat
  stamp : Nat
  deriving DecidableEq, Repr

/-- A copy channel (R199 to R203). -/
structure Chan where
  isOpen : Bool := false
  chwp   : Word := 0
  q      : List CopyCmd := []
  deriving DecidableEq, Repr

/-- A queued MXU command (R162, R178): its scale pair, its pusher, segment state, and how far it has come. -/
structure MxuCmd where
  cmd       : Cmd
  scale     : Word
  ctx       : Nat
  inst      : Nat
  stamp     : Nat
  /-- A linked MMA at its push (R272). -/
  linked    : Bool := false
  committed : Bool := false
  begun     : Bool := false
  step      : Nat := 0
  /-- The accumulator of a begun MMA: read from the home at its beginning and written back at its end (R164). -/
  acc       : List Nat := []
  /-- It was pushed by a secondary: its global effects take place on the primary alone (R312). -/
  second    : Bool := false
  /-- An integer accumulator has left the i32 range (R66). -/
  wrapped   : Bool := false
  /-- An uncorrectable error stands in its entry (R405, R417). -/
  bad       : Bool := false
  deriving DecidableEq, Repr

/-- An operand tile in a buffer (R271): the sender's OP, KT and TAG (R170), the bytes, the block scales that travel with it
(R278), and a poison mark (R407). -/
structure Tile where
  tag    : Nat
  bytes  : List Byte
  scales : List Byte := []
  /-- The UE value of a poisoned granule that it was read from (R407, R408). -/
  bad    : Option Nat := none
  deriving DecidableEq, Repr

/-- The matrix unit. -/
structure Mxu where
  q      : List MxuCmd := []
  /-- The mask parameter block (R172), 64 bytes. -/
  mask   : Cmd := 0
  /-- The link setting (R176), 64 bytes. -/
  link   : Cmd := 0
  west   : List Tile := []
  north  : List Tile := []
  /-- Tiles fetched by the skimmer for A and for B (R274). -/
  skimA  : List Tile := []
  skimB  : List Tile := []
  /-- Tiles taken in and not yet forwarded east and south (R271). -/
  east   : List Tile := []
  south  : List Tile := []
  /-- The rectangle waits for its repair (R273). -/
  broken : Bool := false
  deriving DecidableEq, Repr

/-- A forwarding buffer entry (R239). -/
inductive FwdState
  | empty
  | valid (item : Nat) (strm : Nat) (vals : List Word)
  | poison (item : Nat) (strm : Nat)
  deriving DecidableEq, Repr

/-- Gang membership (R231): the mask and tag. -/
inductive Gang
  | alone
  | arrived (mask tag : BitVec 16)
  | coupled (mask tag : BitVec 16)
  deriving DecidableEq, Repr

/-- The dispatcher's position (R227): source, remaining grant, stream id served last (none: start at the lowest). -/
structure Disp where
  source : Nat := 1
  grant  : Option Nat := none
  last   : Option Nat := none
  deriving DecidableEq, Repr

/-- A send table entry (R186, R330): the context it is valid for, package, instance, placement, owner map (empty: none). -/
structure Slot where
  asid      : Nat
  pkg       : Nat
  inst      : Nat
  placement : List Nat
  owners    : List Nat
  /-- The stages a MODE 2 descriptor may name: stream id, bound type, home core. -/
  stages    : List (Nat × Nat × Nat)
  /-- A revocation waits for the end of the activation that ran then, by its number and instance (R331). -/
  revoked   : Option (Nat × Nat) := none
  deriving DecidableEq, Repr

/-- What a core holds of an instance (R27, R371): generation and versions by tag. -/
structure CoreInst where
  gen      : Nat := 0
  newest   : Option Nat := none
  previous : Option Nat := none
  staged   : Option Nat := none
  dead     : List Nat := []
  deriving DecidableEq, Repr

/-- A stream item on its way to dispatch (R238). -/
structure Item where
  strm  : Nat
  index : Nat
  msg   : Msg
  /-- Its activation returned to PENDING: it is dispatched before any other item (R225). -/
  again : Bool := false
  deriving DecidableEq, Repr

/-- A data injection that waits for a context to complete the instruction at an address (R417). -/
structure Injection where
  ctx    : Nat
  addr   : Nat
  target : DebugTarget
  xor    : Bool
  value  : Nat
  deriving DecidableEq, Repr

/-- One core. -/
structure Core where
  id       : Nat := 0
  ls       : Memory := []
  ctxs     : List Ctx := List.replicate 11 {}
  cur      : Nat := 10
  tvec     : Word := 0
  twp      : Word := 0
  sleep    : Word := 0
  qstat    : Word := 0
  fpst     : Word := 0
  actCount : Word := 0
  /-- The lut4 code table (R59), entry n in bits [8n+7:8n]. -/
  lut      : BitVec 128 := 0
  snapsel  : Word := 0
  wins     : List (Option Win) := [none, none, none, none]
  /-- Contexts in the middle of a MEM instruction, in the order in which these issued (R140). -/
  memQ     : List Nat := []
  /-- Messages and copies that the core has sent and pushed (R400). -/
  sent     : Nat := 0
  chans    : List Chan := [{}, {}, {}, {}]
  /-- In PAIR and TRIAD modes the inbound copies that open segments have pushed, by channel (R302, R318). -/
  inPushes : List (Nat × CopyCmd) := []
  mxu      : Mxu := {}
  /-- Storage commands of the open segment (R204). -/
  stoHeld  : List StoCmd := []
  /-- Releases that pushes of open segments make when these commit (R266): the context and the scope. -/
  pushRel  : List (Nat × Nat) := []
  inbound  : List Msg := []
  spill    : List Msg := []
  ready    : List Msg := []
  items    : List Item := []
  disp     : Disp := {}
  fwd      : List FwdState := List.replicate 32 .empty
  act      : Option Act := none
  gang     : Gang := .alone
  slots    : List (Nat × Slot) := []
  insts    : List (Nat × CoreInst) := []
  resident : Option Nat := none
  lastAsid : Option Nat := none
  /-- Words in the instruction cache: address space, global virtual address, word (R129). -/
  icache   : List (Nat × Nat × Half) := []
  halted   : Bool := false
  breakCapture : Bool := false
  stepCtx  : Option Nat := none
  suspects : Nat := 0
  dead     : Bool := false
  /-- Poisoned 8-byte granules of the local store (R405, R407). -/
  poison   : List Nat := []
  injections : List Injection := []
  deriving DecidableEq, Repr

/-! ## The package (R1, R325 to R340, R390 to R417) -/

/-- A translation (R390): address space, base, size code, frame, home die, rights; `remote` names another package. -/
structure Page where
  asid     : Nat
  va       : Nat
  size     : Nat
  frame    : Nat
  die      : Nat
  writable : Bool := true
  exec     : Bool := true
  remote   : Option Nat := none
  deriving DecidableEq, Repr

/-- A tenant (R325). -/
structure Tenant where
  upgrade  : Bool := false
  storage  : Bool := false
  remote   : Bool := false
  ctrQuota : Nat := 0
  pinQuota : Nat := 0
  /-- The number of its queues, and the bytes of all their rings. -/
  queueQuota : Nat := 0
  ringQuota : Nat := 0
  deriving DecidableEq, Repr

/-- A handler table slot (R228, R347). -/
structure Handler where
  type  : Nat
  entry : Nat
  nw    : Nat
  nv    : Nat
  stk   : Nat
  redm  : Nat := 0
  deriving DecidableEq, Repr

/-- A version of an instance (R369, R373): tag, GP, handlers, the export table (R348), state types with the tag of their layout
and, with a converter, the tag it converts from and its address (R216, R376), trap entry and workspace. -/
structure Version where
  tag      : Nat
  base     : Nat := 0
  gp       : Nat := 0
  wsb      : Nat := 0
  handlers : List Handler := []
  entries  : List Nat := []
  states   : List (Nat × Nat × Option (Nat × Nat)) := []
  tvec     : Nat := 0
  twp      : Nat := 0
  size     : Nat := 0
  textLo   : Nat := 0
  textHi   : Nat := 0
  pins     : List (Nat × Nat) := []
  upc      : Nat := 0
  /-- The data block as Klogar writes it into each core (R360). -/
  data     : List Byte := []
  hdie     : Nat := 0
  deriving DecidableEq, Repr

/-- An instance (R223, R342 to R387). -/
structure Inst where
  asid      : Nat
  placement : List Nat := []
  rects     : List Rect := []
  second    : List (Nat × List Nat) := []
  owners    : List Nat := []
  stages    : List Stage := []
  qwt       : Nat := 1
  rwt       : Nat := 1
  swt       : Nat := 1
  actlim    : Nat := 0
  gen       : Nat := 0
  versions  : List Version := []
  newest    : Option Nat := none
  previous  : Option Nat := none
  staged    : Option Nat := none
  aborts    : Nat := 0
  /-- It asks for cross-die replicas (R298). -/
  xdie      : Bool := false
  /-- Cores whose first residence (scrub, MLINK, start message, data block) is still to come (R233, R332, R360). -/
  fresh     : List Nat := []
  /-- A PURGE of the previous version has returned (R384). -/
  purged    : Bool := false
  deriving DecidableEq, Repr

/-- A queue record (R326). -/
structure Queue where
  asid   : Nat
  pri    : Nat
  mask   : List Nat
  inst   : Nat
  ring   : Nat
  cring  : Nat
  n      : Nat
  door   : Nat
  taken  : Nat
  compl  : Nat
  cons   : Nat
  actlim : Nat := 0
  quant  : Nat := 2000000
  deriving DecidableEq, Repr

/-- A counter page (R286): context, base, home cluster (die and cluster numbers of a core id). -/
structure CtrPage where
  asid : Nat
  va   : Nat
  home : Nat
  deriving DecidableEq, Repr

/-- A counter's value (R184); an unlisted counter of a page holds 0. -/
structure Ctr where
  asid : Nat
  va   : Nat
  val  : Nat
  /-- It is poisoned (R405, R407). -/
  bad  : Bool := false
  deriving DecidableEq, Repr

/-- A context that waits for a counter (R288). -/
structure Waiter where
  core : Nat
  ctx  : Nat
  asid : Nat
  va   : Nat
  th   : Nat
  deriving DecidableEq, Repr

/-- A message on its way (R191, R229): sender, its context and instance, destination core, and whether it was refused. -/
structure Flight where
  msg     : Msg
  src     : Nat
  ctx     : Nat
  dest    : Nat
  pkg     : Nat := 0
  inst    : Nat := 0
  refused : Bool := false
  /-- Its place in the send order of its core (R400). -/
  seq     : Nat := 0
  /-- Klogar has taken it out of the sources of a core that is being retired: it goes before the others to its destination (R413). -/
  recalled : Bool := false
  deriving DecidableEq, Repr

/-- An arm at a counter store (R193, R294), in order of registration. -/
structure Arm where
  asid : Nat
  va   : Nat
  th   : Nat
  msg  : Msg
  core : Nat
  ctx  : Nat
  inst : Nat
  registered : Bool := false
  deriving DecidableEq, Repr

/-- A counter add on its way to its counter (R184, R220): who made or pushed it. -/
structure Add where
  asid : Nat
  va   : Nat
  inc  : Nat
  core : Nat
  inst : Nat
  stamp : Nat
  deriving DecidableEq, Repr

/-- Committed dirty bytes in a cluster cache (R244, R245): physical address, byte, the core whose stash wrote them last, and the
cores of the cluster whose stashes hold the byte dirty because they wrote it before. -/
structure Dirty where
  pa    : Nat
  byte  : Byte
  core  : Nat
  die   : Nat
  before : List Nat := []
  /-- Its granule is poisoned (R407). -/
  bad   : Bool := false
  deriving DecidableEq, Repr

/-- A write-back on its way to its home slice (R245); `waiters` (core and context) wait for its acceptance. -/
structure Back where
  bytes   : List (Nat × Byte)
  core    : Nat
  waiters : List (Nat × Nat)
  /-- It belongs to a strong or a rel store: it is accepted after the earlier ones of its cluster (R254, R258). -/
  ordered : Bool := false
  /-- Poisoned granules that travel with the bytes (R407). -/
  bad     : List Nat := []
  deriving DecidableEq, Repr

/-- A committed non-temporal store on its way to its home (R246). -/
structure NtStore where
  asid  : Nat
  va    : Nat
  bytes : List Byte
  core  : Nat
  ctx   : Nat
  inst  : Nat
  stamp : Nat := 0
  deriving DecidableEq, Repr

/-- Exports on their way to a reading member (R239); no values: poisoned. -/
structure ExpFlight where
  inst : Nat
  strm : Nat
  item : Nat
  vals : Option (List Word)
  dest : Nat
  deriving DecidableEq, Repr

/-- A vote (R309). -/
structure Vote where
  core    : Nat
  group   : List Nat
  ctx     : Nat
  addr    : Nat
  count   : Nat
  ctxsig  : BitVec 64
  regsig  : BitVec 64
  /-- The step that the commit point performs when the verdict agrees: 0 a commit, 3 an ABORT; 4: the
  replica has consumed a UE and fails the vote (R316); 5: its vote is late (R314). -/
  kind    : Nat
  deriving DecidableEq, Repr

/-- An error record (R409, R226, R317). -/
structure ErrRec where
  unit   : Nat := 0
  inst   : Nat := 0
  asid   : Nat := 0
  core   : Nat := 0
  cause  : Nat
  detail : Nat := 0
  addr   : Nat := 0
  time   : Nat := 0
  sigs   : Nat := 0
  ue     : Bool := false
  /-- CAUSE 4: every replica's core with its signatures (R317). -/
  group  : List (Nat × Nat × Nat) := []
  deriving DecidableEq, Repr

/-- An error bank: its record and the fields of BSTAT (R409, R410). -/
structure Bank where
  record : Option ErrRec := none
  uecnt  : Nat := 0
  cecnt  : Nat := 0
  ovfCe  : Bool := false
  ovfUe  : Bool := false
  deriving DecidableEq, Repr

/-- A namespace of an SSD behind a root port (R207, R267): device, id, LBA bytes, whether the device supports its format; the
data as reads find it, and the data that has become durable. -/
structure Namespace where
  dev     : Nat
  nsid    : Nat
  lba     : Nat
  ok      : Bool := true
  blocks  : Nat
  data    : Memory := []
  durable : Memory := []
  deriving DecidableEq, Repr

/-- A queue pair (R204, R395): the context it is assigned to, and its device. -/
structure QPair where
  asid  : Nat
  dev   : Nat
  deriving DecidableEq, Repr

/-- A storage command that has been performed and awaits its completion (R208): the fields of its status slot. -/
structure StoDone where
  cmd   : StoCmd
  estat : Nat
  nvst  : Nat
  bytes : Nat
  sum   : Nat
  deriving DecidableEq, Repr

/-- A save image of an instance on a core (R334), with its spill queue and stream items there (R338). -/
structure Save where
  core  : Nat
  inst  : Nat
  asid  : Nat
  image : Core
  /-- LIVE and FEAT (R335). -/
  live  : Nat
  feat  : Nat
  rev   : Nat
  deriving DecidableEq, Repr

/-- A library's global symbol (R350, R362, R363): name, address, weak, shareable, body, relocations within the body with the
names they refer to. -/
structure LibSym where
  asid  : Nat
  name  : List Byte
  addr  : Nat
  weak  : Bool
  share : Bool
  body  : List Byte
  rels  : List (Nat × Nat × Nat × List Byte)
  /-- HASH of its symbol entry (R350, R363). -/
  hash  : Nat := 0
  deriving DecidableEq, Repr

/-- An installed image (R359): context, base, bytes, instance and tag (none: a library). -/
structure Image where
  asid : Nat
  base : Nat
  size : Nat
  own  : Option (Nat × Nat)
  deriving DecidableEq, Repr

/-- A PURGE in progress (R380): instance, tag, the purging core and context, the cores that still have to be marked and those
that still have to acknowledge. -/
structure Purge where
  inst   : Nat
  tag    : Nat
  core   : Nat
  ctx    : Nat
  toMark : List Nat
  toAck  : List Nat
  deriving DecidableEq, Repr

/-- A page migration (R394): the page, where it goes, and whether it has become a stub. -/
structure Migration where
  asid  : Nat
  va    : Nat
  die   : Nat
  frame : Nat
  stub  : Bool := false
  deriving DecidableEq, Repr

/-- A page whose entry is being invalidated in every cluster TLB (R392): the translation that a cluster goes on using until it has
acknowledged, unless accesses are `moved`, redirected to the new home (R394), and the clusters that have; the old frame is not free before. -/
structure Shoot where
  asid  : Nat
  va    : Nat
  old   : Option Page := none
  moved : Bool := false
  acked : List Nat := []
  deriving DecidableEq, Repr

/-- An entry of a cluster TLB (R390); the Creamery's own has number 1,024. -/
structure TlbEntry where
  cluster : Nat
  asid    : Nat
  va      : Nat
  deriving DecidableEq, Repr

/-- The package. -/
structure Package where
  pkgId    : BitVec 12 := 0
  mgState  : Nat := 0
  pwrCap   : Nat := 2400
  pwr      : Nat := 0
  temp     : Nat := 0
  repl     : Nat := 0
  throttled : Bool := false
  powered  : Bool := true
  time     : Word := 0
  tenants  : List (Nat × Tenant) := []
  pages    : List Page := []
  mem      : Memory := []
  cc       : List Dirty := []
  wb       : List Back := []
  nts      : List NtStore := []
  ctrPages : List CtrPage := []
  ctrs     : List Ctr := []
  waiters  : List Waiter := []
  arms     : List Arm := []
  armOut   : List Flight := []
  adds     : List Add := []
  msgs     : List Flight := []
  exps     : List ExpFlight := []
  sto      : List StoCmd := []
  stoDone  : List StoDone := []
  spaces   : List Namespace := []
  /-- Queue pairs by number. -/
  qps      : List (Nat × QPair) := []
  queues   : List (Nat × Queue) := []
  insts    : List (Nat × Inst) := []
  streams  : List (Nat × Nat × Nat) := []
  /-- Votes on their way to the vote unit, and those it holds (R309, R311). -/
  votes    : List Vote := []
  unit     : List Vote := []
  errs     : List ErrRec := []
  /-- Error records that controllers have received (R294). -/
  ctlErrs  : List ErrRec := []
  banks    : List (Nat × Bank) := []
  /-- Poisoned 8-byte granules of home memory, by physical address over 8 (R407). -/
  poison   : List Nat := []
  /-- Poisoned 64-byte granules, of a DRAM channel or of a slice in DEC-TED, by physical address over 64 (R405, R406). -/
  poisonSec : List Nat := []
  /-- Poisoned 8-byte granules of clean lines in the cluster caches: cluster, physical address over 8 (R405, R408). -/
  ccBad    : List (Nat × Nat) := []
  saves    : List Save := []
  libs     : List LibSym := []
  images   : List Image := []
  /-- Pinned lines by cluster, context and line address (R365). -/
  pins     : List (Nat × Nat × Nat) := []
  /-- Lines of 256 bytes of physical memory that the skimmers hold pinned in their home slices (R276). -/
  skimPins : List Nat := []
  /-- The error records of failed loads, by context (R364). -/
  loadErrs : List (Nat × BitVec 256) := []
  /-- Switch system messages on their way: core and instance (R371). -/
  switches : List (Nat × Nat) := []
  purges   : List Purge := []
  migrs    : List Migration := []
  tlb      : List TlbEntry := []
  /-- The table walks of the dies in their order of arrival: die (4: the Creamery's), address space and page (R390). -/
  walks    : List (Nat × Nat × Nat) := []
  /-- Pages whose invalidation waits for the clusters (R392). -/
  shoot    : List Shoot := []
  /-- The route table: destination and sub-port (R399). -/
  routes   : List (Nat × Nat) := []
  /-- Source cores whose messages to a package are discarded (R401). -/
  cutOff   : List (Nat × Nat) := []
  /-- Flits sent on to other packages (R399). -/
  flits    : List Flit := []
  /-- Ranges that GALLOC gave (R389): context, address, bytes. -/
  allocs   : List (Nat × Nat × Nat) := []
  /-- Bytes appended to instances' logs (R389). -/
  svcLog   : List (Nat × List Byte) := []
  /-- Instances' messages and reports that went to Klogar or a controller (R228, R331, R421). -/
  klogar   : List Msg := []
  /-- Values that the debug port has read, in order (R416). -/
  debugOut : List Nat := []
  /-- Dies whose L2 runs DEC-TED (R406). -/
  decTed   : List Nat := []
  spareUsed : List Nat := []
  lost     : List Nat := []
  waysLost : List Nat := []
  /-- L2 and DRAM rows replaced, by unit (R412). -/
  rows     : List (Nat × Nat) := []
  lanes    : Nat := 0
  /-- The root ports: 4 of x16, 8 of x8 or 16 of x4; 0 before bring-up (R395). -/
  ports    : Nat := 0
  badLinks : List Nat := []
  /-- Attempts to send a flit again since the last one that succeeded, by link unit (R405). -/
  retries  : List (Nat × Nat) := []
  /-- Lanes of the PKL port's sub-ports (R399); none before bring-up. -/
  subWidths : List Nat := []
  /-- What Klogar has reported to controllers (R337, R413): instance, kind (1 RESTORE_FEAT, 2 not re-placed), value. -/
  reports  : List (Nat × Nat × Nat) := []
  /-- The alert of R414 has been raised. -/
  alert    : Bool := false
  /-- Counter pages that a context has freed, and not yet scrubbed (R340). -/
  freed    : List CtrPage := []
  deriving DecidableEq, Repr

/-! ## The machine -/

/-- The whole state. `agenda` is the schedule of the other agents' next steps; `turns` names the cores that issue next,
the focal core when it is empty; `freeCtr` numbers the free values already used. -/
structure State where
  core    : Core
  others  : List (Nat × Core)
  pkg     : Package
  agenda  : List Instr
  turns   : List Nat
  freeCtr : Nat
  deriving DecidableEq, Repr

/-- The state right after reset. -/
def State.reset : State :=
  { core := {}, others := [], pkg := {}, agenda := [], turns := [], freeCtr := 0 }

/-- Why the machine stops. -/
inductive Fault
  /-- Power is off (R267): raised by `step` on a machine that has lost power. Safe: nothing runs on. -/
  | powerOff
  deriving DecidableEq, Repr

/-- Why an instruction has no meaning. -/
inductive Refusal
  /-- The instruction's arm gives no meaning yet: raised by `exec`. Safe: nothing is claimed of it. -/
  | notModelled (mnemonic : String)
  deriving DecidableEq, Repr

end Sys2Proof.Machine
end

