-- ==== Sys2Proof/Machine/Memory.lean ====
section
/-! DEFINITION. Bytes by address: reading, writing in canonical form, little-endian words (R2), slices and blocks; and the
keyed lists that the state is made of. -/

namespace Sys2Proof.Machine

/-- What an address reads as: 0 when it is not listed (R22, R340; notes/assumptions/2.md for home memory). -/
def memRead : Memory → Nat → Byte
  | [], _ => 0
  | (k, v) :: m, a => if a = k then v else if a < k then 0 else memRead m a

/-- Write one byte. Writing 0 removes the entry. -/
def memWrite : Memory → Nat → Byte → Memory
  | [], a, b => if b = 0 then [] else [(a, b)]
  | (k, v) :: m, a, b =>
    if a < k then (if b = 0 then (k, v) :: m else (a, b) :: (k, v) :: m)
    else if a = k then (if b = 0 then m else (k, b) :: m)
    else (k, v) :: memWrite m a b

/-- Addresses strictly rising from `lo`, no zero entry. -/
def Memory.wfFrom : Nat → Memory → Bool
  | _, [] => true
  | lo, (k, v) :: m => lo ≤ k && v != 0 && Memory.wfFrom (k + 1) m

/-- The canonical form. -/
def Memory.wf (m : Memory) : Bool := Memory.wfFrom 0 m

/-- n bytes at a, little-endian, as a number (R2). -/
def readLE (m : Memory) (a : Nat) : Nat → Nat
  | 0 => 0
  | n + 1 => (memRead m a).toNat + 256 * readLE m (a + 1) n

/-- The bytes of a number, little-endian. -/
def bytesLE (x : Nat) : Nat → List Byte
  | 0 => []
  | n + 1 => BitVec.ofNat 8 x :: bytesLE (x / 256) n

/-- The number that bytes form, little-endian. -/
def numLE : List Byte → Nat
  | [] => 0
  | b :: bs => b.toNat + 256 * numLE bs

/-- n bytes at a. -/
def readBytes (m : Memory) (a : Nat) : Nat → List Byte
  | 0 => []
  | n + 1 => memRead m a :: readBytes m (a + 1) n

/-- Write bytes at a and upward. -/
def writeBytes (m : Memory) (a : Nat) : List Byte → Memory
  | [] => m
  | b :: bs => writeBytes (memWrite m a b) (a + 1) bs

/-- Write the low n bytes of x at a. -/
def writeLE (m : Memory) (a n x : Nat) : Memory := writeBytes m a (bytesLE x n)

/-- The bytes at a to a + n - 1, moved to address 0. -/
def memSlice (m : Memory) (a n : Nat) : Memory :=
  (m.filter (fun c => a ≤ c.1 && c.1 < a + n)).map (fun c => (c.1 - a, c.2))

/-- Remove every byte from a to a + n - 1: they read 0. -/
def memClear (m : Memory) (a n : Nat) : Memory := m.filter (fun c => c.1 < a || a + n ≤ c.1)

/-- Two ranges of bytes meet. -/
def meets (a n b m : Nat) : Bool := n != 0 && m != 0 && a < b + m && b < a + n

/-- Marks on 8-byte granules that a write of the bytes a to a + n - 1 leaves: it clears those it covers whole (R407). -/
def unmark (a n : Nat) (gs : List Nat) : List Nat := gs.filter (fun g => !(a ≤ 8 * g && 8 * g + 8 ≤ a + n))

/-- A mark, once. -/
def mark (g : Nat) (gs : List Nat) : List Nat := if gs.contains g then gs else gs ++ [g]

/-- The value a keyed list gives a key. -/
def look {α : Type} (k : Nat) : List (Nat × α) → Option α
  | [] => none
  | (j, v) :: r => if k = j then some v else look k r

/-- Set the value of a key, keys rising. -/
def put {α : Type} (k : Nat) (v : α) : List (Nat × α) → List (Nat × α)
  | [] => [(k, v)]
  | (j, w) :: r => if k < j then (k, v) :: (j, w) :: r else if k = j then (k, v) :: r else (j, w) :: put k v r

/-- Remove a key. -/
def drop {α : Type} (k : Nat) (l : List (Nat × α)) : List (Nat × α) := l.filter (fun x => x.1 != k)

/-- Apply a function to element n of a list. -/
def mapAt {α : Type} (f : α → α) : Nat → List α → List α
  | _, [] => []
  | 0, x :: xs => f x :: xs
  | n + 1, x :: xs => x :: mapAt f n xs

/-- Remove element n of a list. -/
def removeAt {α : Type} : Nat → List α → List α
  | _, [] => []
  | 0, _ :: xs => xs
  | n + 1, x :: xs => x :: removeAt n xs

/-- The first number from lo that does not satisfy p, within n candidates. -/
def firstFree (p : Nat → Bool) (lo : Nat) : Nat → Option Nat
  | 0 => none
  | n + 1 => if p lo then firstFree p (lo + 1) n else some lo

end Sys2Proof.Machine
end

