-- ==== Sys2Proof/Machine/Access.lean ====
section
/-! DEFINITION. Reading and writing the parts of the state: the issuing context, its registers as words of the local store
(R17, R18), the flags (R25), outstanding long results (R30, R31), the program counter and the bellows (R37, R111). -/

namespace Sys2Proof.Machine

/-! ## Parts of the state -/

def updCore (f : Core → Core) (s : State) : State := { s with core := f s.core }
def updPkg (f : Package → Package) (s : State) : State := { s with pkg := f s.pkg }
def updAct (f : Act → Act) (s : State) : State := { s with core := { s.core with act := s.core.act.map f } }

/-- Context h of the focal core. -/
def ctxAt (s : State) (h : Nat) : Ctx := s.core.ctxs.getD h {}
/-- The context that issues: the one that issued last (R16). -/
def ctx (s : State) : Ctx := ctxAt s s.core.cur
def setCtxAt (h : Nat) (f : Ctx → Ctx) (s : State) : State :=
  { s with core := { s.core with ctxs := mapAt f h s.core.ctxs } }
def setCtx (f : Ctx → Ctx) (s : State) : State := setCtxAt s.core.cur f s

/-- The core with a logical id: the focal one, a listed one, or one in its reset state. -/
def coreOf (s : State) (k : Nat) : Core :=
  if k = s.core.id then s.core else (look k s.others).getD { id := k }

/-- The cores that the state lists. -/
def coreIds (s : State) : List Nat := s.core.id :: s.others.map (·.1)

/-- Change a core. -/
def setCore (k : Nat) (c : Core) (s : State) : State :=
  if k = s.core.id then { s with core := c } else { s with others := put k c s.others }

/-- The state as core k sees it. -/
def focusOn (k : Nat) (s : State) : State :=
  if k = s.core.id then s
  else { s with core := (look k s.others).getD { id := k }, others := put s.core.id s.core (drop k s.others) }

/-- Make core k focal, act, and give the focus back. -/
def withCore (k : Nat) (s : State) (f : State → State) : State :=
  if k = s.core.id then f s
  else
    let j := s.core.id
    let t := f { s with core := (look k s.others).getD { id := k }, others := put j s.core (drop k s.others) }
    { t with core := (look j t.others).getD { id := j }, others := put k t.core (drop j t.others) }

/-- Let context h of the focal core be the one that acts, act, and restore the round robin (R16). -/
def asCtx (h : Nat) (s : State) (f : State → State) : State :=
  let c := s.core.cur
  updCore (fun x => { x with cur := c }) (f { s with core := { s.core with cur := h } })

/-- The cluster of a core, with its die (R1). -/
def clusterOf (k : Nat) : Nat := k / 16
/-- The die of a core (R1). -/
def dieOf (k : Nat) : Nat := k / 4096

/-! ## Activation facts -/

/-- The register window in force: NW and NV (R19). Without an activation every register is inside. -/
def windowOf (s : State) : Nat × Nat := match s.core.act with | some a => (a.nw, a.nv) | none => (64, 16)

def actInst (s : State) : Nat := match s.core.act with | some a => a.inst | none => 0
/-- The address space of an instance. -/
def asidOfInst (s : State) (i : Nat) : Nat := match look i s.pkg.insts with | some x => x.asid | none => 0
/-- The address space that the focal core runs in. -/
def asidOf (s : State) : Nat := asidOfInst s (actInst s)
/-- PAIR or TRIAD mode (R297). -/
def redundant (s : State) : Bool := match s.core.act with | some a => a.redm != 0 | none => false
/-- Is this core a secondary replica (R303)? -/
def secondary (s : State) : Bool := match s.core.act with | some a => a.redm != 0 && a.rplc != 0 | none => false

/-! ## Outstanding long results -/

/-- Write the bytes of one long result. -/
def putLong (m : Memory) (l : Long) : Memory := if l.written || l.flags.isSome then m else writeBytes m l.addr l.bytes

/-- The flags of one long result over the rest of FLG. -/
def putFlags (f : Word) (l : Long) : Word :=
  if l.written then f else match l.flags with | some x => (f &&& 0xFFFFFFFFFFFFFFE0) ||| x.setWidth 64 | none => f

/-- The long results that a read of this step sees as written (R31): a free choice for each. -/
def seen (n : Nat) : Nat → List Long → List Long
  | _, [] => []
  | i, l :: ls => if Config.windowNew n i then l :: seen n (i + 1) ls else seen n (i + 1) ls

/-- The local store as the issuing context reads it: the oldest of the results seen remains (R31). -/
def lsView (s : State) : Memory := (seen s.freeCtr 0 (ctx s).longs).reverse.foldl putLong s.core.ls

/-- FLG as the issuing context reads it. -/
def flgView (s : State) : Word := (seen s.freeCtr 0 (ctx s).longs).reverse.foldl putFlags (ctx s).flg

/-- FLG.LA: the remaining count of the oldest open window (R25). -/
def laOf (c : Ctx) : Nat := match c.longs.find? (fun l => l.left != 0) with | none => 0 | some l => l.left % 16

/-- FLG with LA, as a read gives it and a snapshot holds it (R24, R25). -/
def withLa (la : Nat) (f : Word) : Nat := f.toNat % 2 ^ 24 + la * 2 ^ 24 + f.toNat / 2 ^ 28 * 2 ^ 28

/-! ## The local store -/

/-- The mapped window that holds a local store address, with its number. -/
def winAt (c : Core) (a : Nat) : Option (Nat × Win) :=
  let rec go : Nat → List (Option Win) → Option (Nat × Win)
    | _, [] => none
    | i, none :: r => go (i + 1) r
    | i, some w :: r => if w.base ≤ a && a < w.base + w.len then some (i, w) else go (i + 1) r
  go 0 c.wins

/-- The sector of a window that holds a local store address (R136). -/
def sectorOf (w : Win) (a : Nat) : Nat := (a - w.base) / 64

/-- Is this local store address readable at once: outside every window, or in a valid sector (R133)? -/
def sectorValid (c : Core) (a : Nat) : Bool :=
  match winAt c a with | some (_, w) => w.valid.contains (sectorOf w a) | none => true

/-- The first address of a list that needs a fill. -/
def needsFill (c : Core) (as : List Nat) : Option Nat := as.find? (fun a => !sectorValid c a)

/-- The local store address of a poisoned granule that meets a range. -/
def poisonAt (c : Core) (a n : Nat) : Option Nat := (c.poison.find? (fun g => meets a n (8 * g) 8)).map (8 * ·)

/-- Tag the bytes of a range that lie in a mapped window with the open segment (R244). -/
def tagWin (h a n : Nat) (w : Win) : Win :=
  let lo := max a w.base
  let hi := min (a + n) (w.base + w.len)
  if lo < hi then
    { w with tagged := w.tagged.filter (fun t => t.1 < lo || hi ≤ t.1) ++ (List.range (hi - lo)).map (fun i => (lo + i, h)) }
  else w

/-- The bytes that a range of a window holds before a write are remembered (R138). -/
def remember (ls : Memory) (a n : Nat) (w : Win) : Win :=
  let lo := max a w.base
  let hi := min (a + n) (w.base + w.len)
  { w with earlier := w.earlier ++ (List.range (hi - lo)).map (fun i => (lo + i, memRead ls (lo + i))) }

/-- Store bytes to the local store for context h: in a mapped window they carry its segment's tag. -/
def lsPut (h a : Nat) (bs : List Byte) (c : Core) : Core :=
  { c with ls := writeBytes c.ls a bs,
           wins := c.wins.map (Option.map (fun w => tagWin h a bs.length (remember c.ls a bs.length w))),
           poison := unmark a bs.length c.poison }

/-- Write one long result into a core. -/
def landLong (h : Nat) (l : Long) (c : Core) : Core :=
  if l.written then c
  else if l.flags.isSome then { c with ctxs := mapAt (fun x => { x with flg := putFlags x.flg l }) h c.ctxs }
  else lsPut h l.addr l.bytes c

/-- Write long results into a core: where two of them write one place, the older one remains (R31). -/
def landLongs (h : Nat) (ls : List Long) (c : Core) : Core := ls.reverse.foldl (fun c l => landLong h l c) c

/-- Do two outstanding results write a common place? -/
def longsMeet (k l : Long) : Bool :=
  !k.written && !l.written &&
    ((k.flags.isSome && l.flags.isSome) ||
      (k.flags.isNone && l.flags.isNone && meets k.addr k.bytes.length l.addr l.bytes.length))

/-- The results that are written when the windows that `due` names close: those, and just before each of them the younger ones
that write one of its places, which so remains (R31). `older` are the due ones before the list. -/
def landing (due : Long → Bool) (older : List Long) : List Long → List Long
  | [] => []
  | l :: r =>
    if due l then l :: landing due (older ++ [l]) r
    else if older.any (longsMeet l) then l :: landing due older r
    else landing due older r

/-- What is left of the list: the windows that `due` names are closed, the others stay open. -/
def stillOpen (due : Long → Bool) (older : List Long) : List Long → List Long
  | [] => []
  | l :: r =>
    if due l then stillOpen due (older ++ [l]) r
    else { l with written := l.written || older.any (longsMeet l) } :: stillOpen due older r

/-- The windows of context h that `due` names close, their results written. -/
def closeWindows (h : Nat) (due : Long → Bool) (s : State) : State :=
  let ls := (ctxAt s h).longs
  setCtxAt h (fun x => { x with longs := stillOpen due [] ls }) (updCore (landLongs h (landing due [] ls)) s)

/-- Every outstanding long result of context h is written; its windows stay open (R33, R36). -/
def flushLongsAt (h : Nat) (s : State) : State :=
  if (ctxAt s h).longs = [] then s
  else setCtxAt h (fun x => { x with longs := (x.longs.filter (fun l => l.left != 0)).map (fun l => { l with written := true }) })
    (updCore (landLongs h (ctxAt s h).longs) s)

def flushLongs (s : State) : State := flushLongsAt s.core.cur s

/-- The oldest outstanding long result of context h is written, and its window closes (R34). -/
def landOldest (h : Nat) (s : State) : State :=
  let ls := (ctxAt s h).longs
  match ls.findIdx? (fun l => !l.written) with
  | none => s
  | some i =>
    let rest := ls.drop (i + 1)
    let old := ls.getD i { addr := 0, bytes := [], flags := none, left := 0 }
    setCtxAt h (fun x => { x with longs := ls.take i ++ stillOpen (fun _ => false) [old] rest })
      (updCore (landLongs h (old :: landing (fun _ => false) [old] rest)) s)

/-- A fifth long result waits for the oldest of four that are outstanding (R34). -/
def longRoom (s : State) : State :=
  if 4 ≤ ((ctx s).longs.filter (fun l => !l.written)).length then landOldest s.core.cur s else s

/-- Hold a long result for la window instructions; with la = 0 it is written before the next instruction (R30). -/
def pushLong (la : Nat) (l : Long) (s : State) : State :=
  if la = 0 then updCore (landLongs s.core.cur [l]) s
  else setCtx (fun x => { x with longs := x.longs ++ [{ l with left := la + 1 }] }) s

/-- One instruction of the context has issued: every open window counts it (R30). -/
def tick (s : State) : State :=
  if (ctx s).longs = [] then s
  else setCtx (fun x => { x with longs := x.longs.map (fun l => { l with left := l.left - 1 }) }) s

/-- The long results of context h whose windows are full are written (R30). -/
def landDue (h : Nat) (s : State) : State :=
  if (ctxAt s h).longs.all (fun l => l.left != 0) then s else closeWindows h (fun l => l.left == 0) s

/-! ## Registers (R17) -/

def wAddr (s : State) (n : Nat) : Nat := (ctx s).wp.toNat + 8 * n
def vAddr (s : State) (n : Nat) : Nat := (ctx s).wp.toNat + 512 + 64 * n

/-- W[n]. -/
def regW (s : State) (n : Nat) : Nat := readLE (lsView s) (wAddr s n) 8
/-- W[n] ← x, reduced to 64 bits. -/
def setW (n x : Nat) (s : State) : State := updCore (lsPut s.core.cur (wAddr s n) (bytesLE x 8)) s
/-- V[n] as its 64 bytes. -/
def regV (s : State) (n : Nat) : List Byte := readBytes (lsView s) (vAddr s n) 64
/-- V[n] ← bytes. -/
def setV (n : Nat) (bs : List Byte) (s : State) : State := updCore (lsPut s.core.cur (vAddr s n) bs) s

/-- Write w registers from n upward. -/
def setWs (n : Nat) : List Nat → State → State
  | [], s => s
  | x :: xs, s => setWs (n + 1) xs (setW n x s)

/-! ## Flags (R25) -/

def flg (s : State) : Nat := (flgView s).toNat
/-- Element type, plane count, rounding mode, SAT and FPTE. -/
def flgET (s : State) : Nat := bits (flg s) 11 8
def flgPL (s : State) : Nat := let p := bits (flg s) 15 12; if p = 0 then 8 else p
def flgRM (s : State) : Nat := bits (flg s) 18 16
def flgSAT (s : State) : Bool := bit (flg s) 19
def flgFPTE (s : State) : Bool := bit (flg s) 20

/-- The value FLG takes at dispatch, at a helper's start and at trap entry (R25). -/
def flgReset : Word := 0x80C00

/-! ## The program counter and the bellows -/

/-- The address of the issuing instruction's first word (R76). -/
def start (s : State) : Nat := (ctx s).pc.toNat
/-- The address after the base word of a chain with these prefixes (R76). -/
def nextPc (p : Pre) (s : State) : Nat := (start s + 2 * (preLen p + 1)) % 2 ^ 64

/-- The fields of REPST (R37). -/
def repActive (r : Nat) : Bool := bit r 29
def repStart (r : Nat) : Nat := bits r 16 0
def repLen (r : Nat) : Nat := bits r 20 17
def repStride (r : Nat) : Nat := bits r 24 21
def repOffset (r : Nat) : Nat := bits r 28 25
def repCsrc (r : Nat) : Bool := bit r 30
def repIdx (r : Nat) : Nat := bits r 35 32
def repIcount (r : Nat) : Nat := bits r 63 36

/-- REPST from its fields. -/
def repOf (start len stride offset : Nat) (active csrc : Bool) (idx icount : Nat) : Word :=
  BitVec.ofNat 64 (start % 2 ^ 17 + len % 16 * 2 ^ 17 + stride % 16 * 2 ^ 21 + offset % 16 * 2 ^ 25 + b2n active * 2 ^ 29 +
    b2n csrc * 2 ^ 30 + idx % 16 * 2 ^ 32 + icount % 2 ^ 28 * 2 ^ 36)

/-- What keeps the end of a pass from counting W[15] down (R111): its sector is not filled (R133, R137), or it is poisoned (R407). -/
def passStall (s : State) : Option Wait :=
  if repCsrc (ctx s).repst.toNat then none
  else match needsFill s.core [wAddr s 15], poisonAt s.core (wAddr s 15) 8 with
    | some a, _ => some (.fill a)
    | none, some a => some (.count a)
    | none, none => none

/-- The end of a bellows pass (R111) whose last body instruction stands at pc. Where W[15] cannot be read, the context's wait says so, and
`run` lets the whole instruction wait or consume the error. -/
def passEnd (pc : Nat) (s : State) : State :=
  match passStall s with
  | some w => setCtx (fun x => { x with wait := w }) s
  | none =>
  let r := (ctx s).repst.toNat
  let s' := if repCsrc r then s else setW 15 (regW s 15 + (2 ^ 64 - 1)) s
  let count := if repCsrc r then (repIcount r + (2 ^ 28 - 1)) % 2 ^ 28 else regW s' 15
  let body := (pc / 2 ^ 17) * 2 ^ 17 + repStart r
  if count ≠ 0 then
    setCtx (fun x => { x with
      repst := repOf (repStart r) (repLen r) (repStride r) (repOffset r + repStride r) true (repCsrc r) 0
        (if repCsrc r then count else repIcount r), pc := BitVec.ofNat 64 body }) s'
  else setCtx (fun x => { x with repst := 0 }) s'

/-- A context whose instruction is done and that goes on at an address. The record of its own commit point is where it stands now. -/
def Ctx.wentTo (a : Nat) (x : Ctx) : Ctx :=
  { x with pc := BitVec.ofNat 64 a, stage := 0, ops := [], wait := .none, acquired := false, mid := x.mid.filter (!·.own) }

/-- Go on at an address outside the sequence: the instruction is done. -/
def goTo (a : Nat) (s : State) : State := setCtx (Ctx.wentTo a) s

/-- The instruction is done and the next one follows it, in a bellows body the next body instruction (R76, R111). A REPST whose IDX was
written above LEN ends its pass after this instruction: R111 gives IDX = LEN alone (notes/assumptions/89.md). -/
def retire (p : Pre) (s : State) : State :=
  let r := (ctx s).repst.toNat
  let s' := goTo (nextPc p s) s
  if repActive r then
    if repIdx r < repLen r then
      setCtx (fun x => { x with repst := BitVec.ofNat 64 (r + 2 ^ 32) }) s'
    else
      passEnd (start s) s'
  else s'

/-- A taken jump: it ends a replay (R40). -/
def jump (a : Nat) (s : State) : State :=
  goTo a (setCtx (fun x => { x with repst := BitVec.ofNat 64 (x.repst.toNat - b2n (repActive x.repst.toNat) * 2 ^ 29) }) s)

/-- The context waits at its instruction. -/
def block (w : Wait) (s : State) : State := setCtx (fun x => { x with wait := w }) s

/-- The instruction is done as far as part n. -/
def setStage (n : Nat) (s : State) : State := setCtx (fun x => { x with stage := n }) s

def stageOf (s : State) : Nat := (ctx s).stage

/-- A fresh free value has been used. -/
def bump (s : State) : State := { s with freeCtr := s.freeCtr + 1 }

end Sys2Proof.Machine
end

