-- ==== Sys2Proof/Machine/Flags.lean ====
section
/-! DEFINITION. Flag computations: comparisons and tests (R113), floating-point comparison (R120), the conditions of branches
(R124), the legal values of FLG (R26). -/

namespace Sys2Proof.Machine

/-- The five flags, U V C N Z from bit 4 down (R25). -/
def flagBits (z n c v u : Bool) : BitVec 5 := BitVec.ofNat 5 (b2n z + b2n n * 2 + b2n c * 4 + b2n v * 8 + b2n u * 16)

/-- x compared with y (R113). -/
def cmpFlags (x y : Nat) : BitVec 5 :=
  let t := narrow 64 ((x : Int) - y)
  let d := sv x 64 - sv y 64
  flagBits (t = 0) (bit t 63) (y ≤ x) (d < -(2 ^ 63 : Nat) ∨ (2 ^ 63 : Nat) ≤ d) false

/-- x & y tested (R113). -/
def tstFlags (x y : Nat) : BitVec 5 :=
  let t := x &&& y
  flagBits (t = 0) (bit t 63) false false false

/-- Floating-point relations (R120): less, equal, greater, unordered. -/
def fcmpFlags (less eq unord : Bool) : BitVec 5 := flagBits (eq && !unord) (less && !unord) (!less || unord) unord unord

/-- FLG with new flags; no other bit changes (R113). -/
def setFlags (f : BitVec 5) (s : State) : State :=
  setCtx (fun x => { x with flg := (x.flg &&& 0xFFFFFFFFFFFFFFE0) ||| f.setWidth 64 }) s

/-- Does the condition of a branch hold (R124)? -/
def condHolds (f : Nat) (cond : Nat) : Bool :=
  let z := bit f 0
  let n := bit f 1
  let c := bit f 2
  let v := bit f 3
  let u := bit f 4
  match cond with
  | 0 => true
  | 1 => z
  | 2 => !z
  | 3 => n != v
  | 4 => n == v
  | 5 => !z && n == v
  | 6 => z || n != v
  | 7 => !c
  | 8 => c
  | 9 => c && !z
  | 10 => !c || z
  | 11 => u
  | 12 => !u
  | 13 => v
  | 14 => !v
  | _ => true

/-- May FLG be written with f (R26)? -/
def flgLegal (f : Nat) : Bool := bits f 18 16 ≤ 4 && (bits f 15 12 = 0 || (2 ≤ bits f 15 12 && bits f 15 12 ≤ 8))

/-- The RW fields of f; LA and the RES bits are ignored (R25, R26). -/
def flgWritten (f : Nat) : Word := BitVec.ofNat 64 (f &&& 0x1FFF1F)

end Sys2Proof.Machine
end

