-- ==== Sys2Proof/Machine/Global.lean ====
section
/-! DEFINITION. Global memory as the agents reach it: translation (R390), home memory, the cluster caches with the bytes on their
way home (R243 to R245), stash windows (R133, R244). -/

namespace Sys2Proof.Machine

/-- Bytes of a page of each size code. -/
def pageBytes (code : Nat) : Nat := match code with | 0 => 2 ^ 12 | 1 => 2 ^ 16 | 2 => 2 ^ 21 | _ => 2 ^ 30

/-- Does a page hold an address of an address space? -/
def covers (asid va : Nat) (p : Page) : Bool := p.asid == asid && p.va ≤ va && va < p.va + pageBytes p.size

/-- The translation of an address for the cluster of the focal core: the old one until the cluster has acknowledged its invalidation
(R392), then the page table's. -/
def findPage (s : State) (asid va : Nat) : Option Page :=
  let old := s.pkg.shoot.findSome? (fun x =>
    if x.acked.contains (clusterOf s.core.id) || x.moved then none else x.old.filter (covers asid va))
  match old with
  | some p => some p
  | none => s.pkg.pages.find? (covers asid va)

/-- The state as the Creamery sees it, whose own translations are the page table's (R390). -/
def creameryView (s : State) : State := updPkg (fun k => { k with shoot := [] }) s

/-- The same step as the Creamery makes it. -/
def asCreamery (f : State → State) (s : State) : State :=
  updPkg (fun k => { k with shoot := s.pkg.shoot }) (f (creameryView s))

/-- The physical address of a local byte. -/
def paOf (s : State) (asid va : Nat) : Option Nat :=
  match findPage s asid va with
  | some p => if p.remote.isNone then some (p.frame + (va - p.va)) else none
  | none => none

/-- The home die of an address (R243). -/
def homeDie (s : State) (asid va : Nat) : Nat := match findPage s asid va with | some p => p.die | none => 0

/-- A byte in a list of addressed bytes, the latest entry first. -/
def lastByte (pa : Nat) : List (Nat × Byte) → Option Byte
  | [] => none
  | (a, b) :: r => match lastByte pa r with | some x => some x | none => if a = pa then some b else none

/-- A byte that a cluster holds: committed in its cluster cache, or on its way home from there (R243, R245). -/
def cachedByte (s : State) (cluster pa : Nat) : Option Byte :=
  match s.pkg.cc.find? (fun d => d.pa == pa && clusterOf d.core == cluster) with
  | some d => some d.byte
  | none => lastByte pa ((s.pkg.wb.filter (fun b => clusterOf b.core == cluster)).flatMap (·.bytes))

/-- A byte as a fill from a cluster finds it: held there, or at its home. -/
def clusterByte (s : State) (cluster pa : Nat) : Byte := (cachedByte s cluster pa).getD (memRead s.pkg.mem pa)

/-- n bytes at a global virtual address, from a cluster; none when one of them has no local translation. -/
def clusterRead (s : State) (cluster asid va : Nat) : Nat → Option (List Byte)
  | 0 => some []
  | n + 1 =>
    match paOf s asid va, clusterRead s cluster asid (va + 1) n with
    | some pa, some bs => some (clusterByte s cluster pa :: bs)
    | _, _ => none

/-- The mark that a byte carries at its home: its granule has 8 bytes, or 64 in DRAM and in a slice that runs DEC-TED (R405, R407). -/
def homeBad (g : Package) (pa : Nat) : Bool := g.poison.contains (pa / 8) || g.poisonSec.contains (pa / 64)

/-- The mark that a byte carries where a cluster finds it (R407): in its cache, else on its way home from there, else at its home. -/
def byteBad (s : State) (cluster pa : Nat) : Bool :=
  match s.pkg.cc.find? (fun d => d.pa == pa && clusterOf d.core == cluster) with
  | some d => d.bad
  | none =>
    match (s.pkg.wb.filter (fun b => clusterOf b.core == cluster && b.bytes.any (·.1 == pa))).getLast? with
    | some b => b.bad.contains (pa / 8)
    | none => s.pkg.ccBad.contains (cluster, pa / 8) || homeBad s.pkg pa

/-- The physical address of a poisoned granule that the focal core reads at a global address (R407). -/
def granulePoison (s : State) (asid va : Nat) : Option Nat :=
  match paOf s asid va with
  | some pa => if (List.range 8).any (fun i => byteBad s (clusterOf s.core.id) (pa / 8 * 8 + i)) then some pa else none
  | none => none

/-- n bytes at a global virtual address, at their homes: what an engine reads. -/
def homeRead (s : State) (asid va : Nat) : Nat → Option (List Byte)
  | 0 => some []
  | n + 1 =>
    match paOf s asid va, homeRead s asid (va + 1) n with
    | some pa, some bs => some (memRead s.pkg.mem pa :: bs)
    | _, _ => none

/-- May every byte of the range be written? -/
def writableRange (s : State) (asid va : Nat) : Nat → Bool
  | 0 => true
  | n + 1 =>
    (match findPage s asid va with | some p => p.writable && p.remote.isNone | none => false) &&
      writableRange s asid (va + 1) n

/-- A byte is accepted at its home slice: it replaces what was there, and older dirty copies of other clusters stay (R243). -/
def homePut (pa : Nat) (b : Byte) (s : State) : State := updPkg (fun k => { k with mem := memWrite k.mem pa b }) s

/-- Bytes reach their homes, by global virtual address. -/
def homeBytes (asid va : Nat) : List Byte → State → State
  | [], s => s
  | b :: bs, s =>
    homeBytes asid (va + 1) bs (match paOf s asid va with | some pa => homePut pa b s | none => s)

/-- Does a write of bytes at some physical addresses cover the granule g of n bytes whole (R407)? -/
def coversAll (n : Nat) (pas : List Nat) (g : Nat) : Bool := (List.range n).all (fun i => pas.contains (n * g + i))

/-- A write of bytes at some physical addresses clears the marks of the granules that it covers whole (R407). -/
def unmarkHome (pas : List Nat) (k : Package) : Package :=
  { k with
    poison := k.poison.filter (fun g => !coversAll 8 pas g)
    poisonSec := k.poisonSec.filter (fun g => !coversAll 64 pas g)
    ccBad := k.ccBad.filter (fun x => !coversAll 8 pas x.2) }

/-- Bytes are accepted at their homes, by global virtual address. -/
def homeWrite (asid va : Nat) (bs : List Byte) (s : State) : State :=
  updPkg (unmarkHome ((List.range bs.length).filterMap (fun i => paOf s asid (va + i)))) (homeBytes asid va bs s)

/-- Bytes of write-backs reach their homes, with the marks that travel with them. -/
def homePas (bs : List (Nat × Byte)) (bad : List Nat) (k : Package) : Package :=
  let u := unmarkHome (bs.map (·.1)) k
  { u with mem := bs.foldl (fun m x => memWrite m x.1 x.2) k.mem, poison := u.poison ++ bad }

/-! ## Stash windows -/

/-- Change window i. -/
def updWin (i : Nat) (f : Win → Win) (c : Core) : Core := { c with wins := mapAt (Option.map f) i c.wins }

/-- A sector becomes invalid. Bytes that an open segment has tagged there keep their values through the next fill (R244). -/
def invalidateSector (n : Nat) (w : Win) : Win := { w with valid := w.valid.filter (· != n) }

/-- Put a filled sector into window i: bytes tagged there keep their own values (R244). `log` are the bytes that a secondary's fill
takes (R301); none in single mode. -/
def fillSector (i n : Nat) (bs : List Byte) (log : Option (List Byte)) (c : Core) : Core :=
  match c.wins.getD i none with
  | none => c
  | some w =>
    let a := w.base + 64 * n
    let put := (List.range bs.length).foldl (fun m j =>
      if w.tagged.any (fun t => t.1 == a + j) then m else memWrite m (a + j) (bs.getD j 0)) c.ls
    updWin i (fun w =>
      let v := remember c.ls a bs.length w
      { v with
        valid := if w.valid.contains n then w.valid else w.valid ++ [n]
        fills := match log with | some l => w.fills ++ [(n, l)] | none => w.fills }) { c with ls := put }

/-- Does a core hold a non-temporal store to a global byte? -/
def ntHeld (c : Core) (va : Nat) : Bool :=
  match c.act with
  | some a => a.held.any (fun e => match e.out with | .nt lo bs => lo ≤ va && va < lo + bs.length | _ => false)
  | none => false

/-- The addresses where a committed byte reaches a window: every valid sector that holds it and has neither tagged it nor a held
non-temporal store of the core to it (R244, R259). A shadow copy takes no part (R303). -/
def snoopAt (paAt : Nat → Option Nat) (pa : Nat) (c : Core) (w : Win) : List Nat :=
  if w.shadow then []
  else w.valid.flatMap (fun n => ((List.range 64).map (fun j => w.base + 64 * n + j)).filter (fun a =>
    paAt (w.va + (a - w.base)) == some pa && !w.tagged.any (fun t => t.1 == a) && !ntHeld c (w.va + (a - w.base))))

/-- What a write leaves of a granule's mark (R407): the mark, none, or the one that stood there. -/
inductive Mark
  | bad
  | whole
  | part
  deriving DecidableEq, Repr

/-- A committed byte reaches the stashes of one core, in the address space of its resident instance, with its granule's mark. -/
def snoopCore (s : State) (pa : Nat) (b : Byte) (m : Mark) (c : Core) : Core :=
  let at_ := fun (w : Win) => snoopAt (paOf s (c.lastAsid.getD 0)) pa c w
  let places := c.wins.flatMap (fun w => match w with | some w => at_ w | none => [])
  { c with
    ls := places.foldl (fun l a => memWrite l a b) c.ls
    poison := (match m with
      | .bad => places.foldl (fun p a => mark (a / 8) p) c.poison
      | .whole => c.poison.filter (fun g => !places.any (fun a => a / 8 == g))
      | .part => c.poison)
    wins := c.wins.map (Option.map (fun w => (at_ w).foldl (fun w a => remember c.ls a 1 w) w)) }

/-- A byte that the focal core has stored becomes committed contents of the cluster in one step (R244). A mark that the granule has
in the cluster cache stays where the write does not cover it (R407). -/
def commitByte (va : Nat) (b : Byte) (m : Mark) (s : State) : State :=
  let asid := asidOf s
  match paOf s asid va with
  | none => s
  | some pa =>
    let k := s.core.id
    let cl := clusterOf k
    let same := fun (x : Dirty) => x.pa == pa && clusterOf x.core == cl
    let bad := m == .bad || (m == .part && (s.pkg.cc.filter same).any (·.bad))
    let d : Dirty := { pa := pa, byte := b, core := k, die := homeDie s asid va, bad := bad,
                       before := ((s.pkg.cc.filter same).flatMap (fun x => x.core :: x.before)).eraseDups }
    let cc := s.pkg.cc.filter (fun x => !same x) ++ [d]
    { s with
      core := snoopCore s pa b m s.core
      others := s.others.map (fun o => if clusterOf o.1 == cl then (o.1, snoopCore s pa b m o.2) else o)
      pkg := { s.pkg with cc := cc } }

/-- The bytes of a window that context h (none: any) has tagged: global address, value, poison mark. -/
def taggedBytes (h : Option Nat) (c : Core) : List (Nat × Byte × Bool) :=
  c.wins.flatMap (fun w => match w with
    | some w => (w.tagged.filter (fun t => h.isNone || h == some t.2)).map (fun t =>
        (w.va + (t.1 - w.base), memRead c.ls t.1, c.poison.contains (t.1 / 8)))
    | none => [])

def untag (h : Option Nat) (c : Core) : Core :=
  { c with wins := c.wins.map (Option.map (fun w =>
      { w with tagged := w.tagged.filter (fun t => !(h.isNone || h == some t.2)) })) }

/-- The mark that a byte among those of one commit leaves (R407): `vas` are their global addresses. -/
def markOf (vas : List Nat) (va : Nat) (bad : Bool) : Mark :=
  if bad then .bad else if (List.range 8).all (fun i => vas.contains (va / 8 * 8 + i)) then .whole else .part

/-- Bytes of the focal core become committed contents of its cluster: global address, value, poison mark. -/
def commitBytes (bs : List (Nat × Byte × Bool)) (s : State) : State :=
  let vas := bs.map (·.1)
  bs.foldl (fun t x => commitByte x.1 x.2.1 (markOf vas x.1 x.2.2) t) s

/-- The tagged stash bytes of a segment become committed (R244, R249). A secondary's shadow bytes reach nothing (R303, R312). -/
def commitStash (h : Option Nat) (s : State) : State :=
  let bs := taggedBytes h s.core
  let t := updCore (untag h) s
  if secondary s then t else commitBytes bs t

/-- The tagged stash bytes of a segment are discarded, each sector concerned invalidated (R250). -/
def discardStash (h : Option Nat) (c : Core) : Core :=
  { c with wins := c.wins.map (Option.map (fun w =>
      let mine := w.tagged.filter (fun t => h.isNone || h == some t.2)
      { w with
        valid := w.valid.filter (fun n => !mine.any (fun t => sectorOf w t.1 == n))
        tagged := w.tagged.filter (fun t => !mine.any (fun m => m.1 == t.1)) })) }

/-! ## Write-backs (R245) -/

/-- The poisoned granules of some dirty bytes. -/
def badOf (ds : List Dirty) : List Nat := ((ds.filter (·.bad)).map (fun d => d.pa / 8)).eraseDups

/-- Does core k's stash hold a committed byte dirty? A byte that another core of the cluster has overwritten since is dirty there
still: what was committed later goes home with it (R244, R257). -/
def dirtyBy (k : Nat) (d : Dirty) : Bool := d.core == k || d.before.contains k

/-- Does a committed dirty byte belong to a sector that is dirty in core k's stash and that p selects by a byte of core k? The
whole sector goes back: the bytes that other cores of the cluster have committed in it too (R217, R254). -/
def goesBack (p : Dirty → Bool) (g : Package) (k : Nat) (d : Dirty) : Bool :=
  clusterOf d.core == clusterOf k && g.cc.any (fun e => dirtyBy k e && p e && e.pa / 64 == d.pa / 64)

/-! Non-temporal stores of a cluster that have committed and are on their way precede, byte by byte, everything committed in the
cluster after them (R256, R259): they are combined before such a byte is accepted. -/

/-- The physical addresses of a non-temporal store. -/
def ntPas (s : State) (x : NtStore) : List Nat := (List.range x.bytes.length).filterMap (fun i => paOf s x.asid (x.va + i))

/-- Of some stores, oldest first, those to one of some bytes, and before each of them the earlier ones that meet its bytes. -/
def ntClosure (s : State) (pas : List Nat) (l : List NtStore) : List NtStore :=
  (l.foldr (fun x r => if (ntPas s x).any r.1.contains then (r.1 ++ ntPas s x, x :: r.2) else r) (pas, [])).2

/-- The non-temporal stores of the focal core's cluster that are on their way to one of some bytes, in their order, with the earlier ones
that each of them has to follow (R256); one whose translation fails waits (R422). -/
def ntsTo (s : State) (pas : List Nat) : List NtStore :=
  ntClosure s pas (s.pkg.nts.filter (fun x => clusterOf x.core == clusterOf s.core.id && writableRange s x.asid x.va x.bytes.length))

/-- They are combined at their homes, in their order. -/
def combineTo (pas : List Nat) (s : State) : State :=
  (ntsTo s pas).foldl (fun t x => homeWrite x.asid x.va x.bytes (updPkg (fun g => { g with nts := g.nts.erase x }) t)) s

/-- The dirty sectors of this core that p selects start for their homes, and the issuing context waits for them and for what is
already on its way from its cluster. -/
def startBack (ordered : Bool) (p : Dirty → Bool) (s : State) : State :=
  let k := s.core.id
  let me := (k, s.core.cur)
  let mine := s.pkg.cc.filter (goesBack p s.pkg k)
  let old := s.pkg.wb.map (fun b =>
    if clusterOf b.core == clusterOf k && !b.waiters.contains me then { b with waiters := b.waiters ++ [me] } else b)
  updPkg (fun g => { g with
    cc := g.cc.filter (fun d => !goesBack p g k d)
    wb := if mine.isEmpty then old
      else old ++ [{ bytes := mine.map (fun d => (d.pa, d.byte)), core := k, waiters := [me], ordered := ordered, bad := badOf mine }] }) s

/-- The same sectors, accepted at their homes at once: the release part of an output that leaves (R191, R194, R266). -/
def flushNow (p : Dirty → Bool) (s : State) : State :=
  let k := s.core.id
  let flying := s.pkg.wb.filter (fun b => clusterOf b.core == clusterOf k)
  let mine := s.pkg.cc.filter (goesBack p s.pkg k)
  let s := combineTo (flying.flatMap (fun b => b.bytes.map (·.1)) ++ mine.map (·.pa)) s
  updPkg (fun g => homePas (flying.flatMap (·.bytes) ++ mine.map (fun d => (d.pa, d.byte))) (flying.flatMap (·.bad) ++ badOf mine)
    { g with
      cc := g.cc.filter (fun d => !goesBack p g k d)
      wb := g.wb.filter (fun b => clusterOf b.core != clusterOf k) }) s

/-- Every committed byte of the cluster in the sectors of some bytes is accepted at its home, whatever core wrote it (R134). -/
def flushSectors (pas : List Nat) (s : State) : State :=
  let cl := clusterOf s.core.id
  let here := fun (d : Dirty) => clusterOf d.core == cl && pas.any (fun p => p / 64 == d.pa / 64)
  let mine := s.pkg.cc.filter here
  let t := flushNow (fun _ => false) s
  updPkg (fun g => homePas (mine.map (fun d => (d.pa, d.byte))) (badOf mine) { g with cc := g.cc.filter (fun d => !here d) })
    (combineTo (mine.map (·.pa)) t)

/-- A write-back is accepted at its home slices. -/
def acceptBack (n : Nat) (s : State) : State :=
  match s.pkg.wb[n]? with
  | none => s
  | some b => updPkg (fun k => homePas b.bytes b.bad { k with wb := removeAt n k.wb }) s

/-- Does the issuing context wait for a write-back of its own? -/
def backsOpen (s : State) : Bool := s.pkg.wb.any (fun b => b.waiters.contains (s.core.id, s.core.cur))

/-- The scope table of R217: the homes that a release writes back and an acquire invalidates, by home die. -/
def inSet (k scope die : Nat) : Bool := match scope with | 0 | 1 => false | 2 => die == dieOf k | _ => true

/-- The write-back part of a release at a scope; `ordered`: of a rel store. -/
def releaseAt (ordered : Bool) (scope : Nat) (s : State) : State :=
  if secondary s then s else startBack ordered (fun d => inSet s.core.id scope d.die) s

/-- The primary of the running activation (R303). -/
def leadCore (s : State) : Nat := match s.core.act with | some a => a.group.getD 0 s.core.id | none => s.core.id

/-- The sectors of the windows, by number, that become invalid where p says so. -/
def invalidateAll (p : Nat → Nat → Bool) (c : Core) : Core :=
  { c with wins := (List.range c.wins.length).map (fun i => (c.wins.getD i none).map (fun w => { w with
      valid := w.valid.filter (fun n => !p i n) })) }

/-- Does the acquire part at a scope invalidate a sector of a window: a clean one of its set (R217)? A sector with tagged bytes is not
clean; one with committed dirty bytes of this core is not clean either. A secondary's shadow copies go where the primary's do (R303). -/
def acquires (scope : Nat) (s : State) (w : Win) (n : Nat) : Bool :=
  let asid := asidOf s
  let k := leadCore s
  let dirty := fun va => match paOf s asid va with
    | some pa => s.pkg.cc.any (fun d => dirtyBy k d && d.pa == pa)
    | none => false
  inSet k scope (homeDie s asid (w.va + 64 * n)) && !w.tagged.any (fun t => sectorOf w t.1 == n) &&
    !(List.range 64).any (fun j => dirty (w.va + 64 * n + j))

/-- The valid sectors that it invalidates, by window number and sector. -/
def acquireSet (scope : Nat) (s : State) : List (Nat × Nat) :=
  (List.range s.core.wins.length).flatMap (fun i => match s.core.wins.getD i none with
    | some w => (w.valid.filter (acquires scope s w)).map (fun n => (i, n))
    | none => [])

/-- The acquire part at a scope. -/
def acquireAt (scope : Nat) (s : State) : State :=
  updCore (fun c => { c with wins := c.wins.map (Option.map (fun w => { w with
    valid := w.valid.filter (fun n => !acquires scope s w n) })) }) s

end Sys2Proof.Machine
end

