-- ==== Sys2Proof/Machine/MxuFields.lean ====
section
/-! DEFINITION. The fields of MXU commands (R163 to R176), the accumulator homes and the local store ranges they name (R164, R167),
and which of them are local or linked (R198, R272). -/

namespace Sys2Proof.Machine

/-- A field of a command. -/
def fld (c : Cmd) (hi lo : Nat) : Nat := bits c.toNat hi lo

/-- The opcode (R163). -/
def mOp (c : Cmd) : Nat := fld c 7 0
/-- Is it an MMA (R165)? -/
def isMma (op : Nat) : Bool := 0x10 ≤ op && op ≤ 0x1E

/-- Type code of A (R90, R165). -/
def mmaA (op : Nat) : Nat :=
  match op with
  | 0x10 => 13 | 0x11 => 12 | 0x12 | 0x1A | 0x1D => 10 | 0x13 | 0x1B | 0x1E => 11
  | 0x14 | 0x15 => 8 | 0x16 | 0x17 => 9 | _ => 0
/-- Type code of B: 15 bit planes, 14 lut4. -/
def mmaB (op : Nat) : Nat :=
  match op with
  | 0x10 => 13 | 0x11 => 12 | 0x12 => 10 | 0x13 => 11 | 0x14 | 0x16 => 8 | 0x15 | 0x17 => 9
  | 0x19 | 0x1A | 0x1B => 15 | 0x1C | 0x1D | 0x1E => 14 | _ => 0
/-- Accumulator format: 0 f32, 1 i32, 2 f64. -/
def mmaAcc (op : Nat) : Nat := match op with | 0x10 => 2 | 0x18 | 0x19 | 0x1C => 1 | _ => 0
/-- Bytes of an accumulator element. -/
def accSize (fmt : Nat) : Nat := if fmt = 2 then 8 else 4

/-- Bytes of 256 elements of a type (R165). -/
def tileBytes (code : Nat) : Nat :=
  match code with | 13 => 2048 | 12 => 1024 | 10 | 11 => 512 | 14 => 128 | _ => 256
/-- Alignment of a tile (R169). -/
def tileAlign (code : Nat) : Nat := if code = 15 then 256 else 64

/-- The plane count of a command (R166). -/
def mmaPlanes (c : Cmd) : Nat := let k := fld c 35 32; if k = 0 then 8 else k
/-- Bytes of a tile that a command reads: for bp the sectors of its planes (R62, R274). -/
def tileRead (c : Cmd) (code : Nat) : Nat := if code = 15 then 64 * ((mmaPlanes c + 1) / 2) else tileBytes code

/-- Fields of an MMA by operand, A (false) or B. -/
def mmaSrc (c : Cmd) (b : Bool) : Nat := if b then fld c 13 12 else fld c 11 10
def mmaAdr (c : Cmd) (b : Bool) : Nat := if b then fld c 255 192 else fld c 191 128
def mmaStep (c : Cmd) (b : Bool) : Nat := if b then fld c 319 288 else fld c 287 256
def mmaScale (c : Cmd) (b : Bool) : Nat := if b then fld c 383 352 else fld c 351 320
def mmaCode (c : Cmd) (b : Bool) : Nat := if b then mmaB (mOp c) else mmaA (mOp c)
def mmaKt (c : Cmd) : Nat := fld c 31 16
def mmaBscl (c : Cmd) : Bool := c.toNat.testBit 9
/-- What travels with a tile: OP, KT and TAG (R170). -/
def mmaTag (c : Cmd) : Nat := mOp c + mmaKt c * 2 ^ 8 + fld c 415 384 * 2 ^ 24

/-- MOUT fields (R174): output bytes per element, and whether the output is global. -/
def outSize (otype : Nat) : Nat :=
  match otype with | 0 | 8 | 9 => 1 | 1 | 10 | 11 => 2 | 2 | 12 => 4 | 13 => 8 | _ => 0
def moutGlob (c : Cmd) : Bool := c.toNat.testBit 11

/-- The accumulator home of a command: address and length (R164). -/
def homeOf (c : Cmd) : Option (Nat × Nat) :=
  let op := mOp c
  let at_ := fun n => some (fld c 95 64, n)
  if isMma op then at_ (256 * accSize (mmaAcc op))
  else if op = 1 then at_ (if c.toNat.testBit 8 then 2048 else 1024)
  else if op = 3 then at_ (256 * accSize (fld c 17 16))
  else none

/-- Local store ranges of one operand of an MMA: its tiles, and its block scales (R167). -/
def tileRanges (c : Cmd) (b : Bool) : List (Nat × Nat) :=
  if mmaSrc c b = 0 then (List.range (mmaKt c)).map (fun t => (mmaAdr c b + t * mmaStep c b, tileBytes (mmaCode c b))) else []
def scaleRange (c : Cmd) (b : Bool) : List (Nat × Nat) :=
  if mmaBscl c && mmaSrc c b != 2 then [(mmaScale c b, 16 * (mmaKt c / 2))] else []

/-- Local store ranges of a MOUT: its 16 rows. -/
def outRanges (c : Cmd) : List (Nat × Nat) :=
  if moutGlob c then []
  else (List.range 16).map (fun r => (fld c 191 128 + r * fld c 223 192, 16 * outSize (fld c 27 24)))

/-- Every local store range that a command names (R133, R137). -/
def cmdRanges (c : Cmd) : List (Nat × Nat) :=
  let op := mOp c
  (match homeOf c with | some h => [h] | none => []) ++
    (if isMma op then tileRanges c false ++ tileRanges c true ++ scaleRange c false ++ scaleRange c true
     else if op = 3 then outRanges c else [])

/-! ## Links (R176) -/

/-- A neighbour of a link setting: 0 west, 1 east, 2 north, 3 south. A setting that no MLINK has written has none. -/
def neighbour (link : Cmd) (d : Nat) : Option Nat :=
  let v := fld link (79 + 16 * d) (64 + 16 * d)
  if mOp link = 5 && v != 0xFFFF then some v else none

def linkedSetting (link : Cmd) : Bool := (List.range 4).any (fun d => (neighbour link d).isSome)

/-- A linked MMA on a core with a link setting (R272). -/
def linkedMma (link c : Cmd) : Bool :=
  isMma (mOp c) && (mmaSrc c false != 0 || mmaSrc c true != 0 || linkedSetting link)

/-- A local command (R198). -/
def mxuLocal (link c : Cmd) : Bool :=
  let op := mOp c
  if isMma op then !linkedMma link c
  else op == 1 || op == 2 || op == 6 || (op == 3 && !moutGlob c)

/-- A command whose effect leaves the core: it begins only after its segment has committed (R178, R272). -/
def mxuGated (e : MxuCmd) : Bool := e.linked || (mOp e.cmd == 3 && moutGlob e.cmd) || mOp e.cmd == 4

/-- Does the queue hold a linked MMA (R273)? -/
def holdsLinked (c : Core) : Bool := c.mxu.q.any (·.linked)

/-! ## Places (R1) -/

/-- The grid position of a core on its die. -/
def gridX (k : Nat) : Nat := k / 16 % 16 * 4 + k % 4
def gridY (k : Nat) : Nat := k / 256 % 16 * 4 + k / 4 % 4
/-- The core at a grid position of a die. -/
def coreAt (die x y : Nat) : Nat := die * 4096 + y / 4 * 256 + x / 4 * 16 + y % 4 * 4 + x % 4

/-- The cores of a rectangle, row by row (R233). -/
def rectCores (r : Rect) : List Nat :=
  (List.range (r.nr + 1)).flatMap (fun i => (List.range (r.nc + 1)).map (fun j =>
    coreAt (dieOf r.origin) (gridX r.origin + j) (gridY r.origin + i)))

/-- The link setting of a core in a rectangle. -/
def linkIn (r : Rect) (k : Nat) : Cmd :=
  let d := dieOf k
  let x := gridX k
  let y := gridY k
  let i := y - gridY r.origin
  let j := x - gridX r.origin
  let nb := fun (there : Bool) (n : Nat) => if there then n else 0xFFFF
  BitVec.ofNat 512 (5 + r.nr * 2 ^ 16 + r.nc * 2 ^ 24 + i * 2 ^ 32 + j * 2 ^ 40 + nb (j != 0) (coreAt d (x - 1) y) * 2 ^ 64 +
    nb (j != r.nc) (coreAt d (x + 1) y) * 2 ^ 80 + nb (i != 0) (coreAt d x (y - 1)) * 2 ^ 96 +
    nb (i != r.nr) (coreAt d x (y + 1)) * 2 ^ 112)

/-- The rectangle of a placement that holds a core. -/
def rectOf (rs : List Rect) (k : Nat) : Option Rect := rs.find? (fun r => (rectCores r).contains k)

/-- The rectangle that a link setting describes, seen from core k. -/
def rectOfLink (link : Cmd) (k : Nat) : Rect :=
  if mOp link = 5 then
    ⟨coreAt (dieOf k) (gridX k - fld link 45 40) (gridY k - fld link 37 32), fld link 21 16, fld link 29 24⟩
  else ⟨k, 0, 0⟩

/-! ## The local store as the MXU reads and writes it -/

/-- Bytes written by an engine. -/
def rawPut (a : Nat) (bs : List Byte) (c : Core) : Core :=
  { c with ls := writeBytes c.ls a bs, poison := unmark a bs.length c.poison }

/-- The accumulator of a begun MMA is written back to its home. -/
def putHome (e : MxuCmd) (c : Core) : Core :=
  let op := mOp e.cmd
  let n := accSize (mmaAcc op)
  rawPut (fld e.cmd 95 64) (e.acc.flatMap (fun x => bytesLE x n)) c

/-- The queue and the operand buffers are emptied; a begun MMA leaves its partial sums (R273).
The tiles in the buffers go with the commands (notes/assumptions/98.md). -/
def emptyMxu (c : Core) : Core :=
  let d := c.mxu.q.foldl (fun d e => if e.begun && isMma (mOp e.cmd) then putHome e d else d) c
  { d with mxu := { d.mxu with q := [], west := [], north := [], skimA := [], skimB := [], east := [], south := [] } }

end Sys2Proof.Machine
end

