-- ==== Sys2Proof/Machine/Counter.lean ====
section
/-! DEFINITION. Counters and their stores (R183, R184, R286 to R288, R294), message headers (R188), error records and pending
causes. -/

namespace Sys2Proof.Machine

/-! ## Why an instruction does not complete -/

/-- A trap with its value (R219), the RENNET trap with its converter and GP (R216, R219), a stall, or STRAGGLER. -/
inductive Stop
  | trap (code value : Nat)
  | rennet (h conv gp : Nat)
  | wait (w : Wait)
  /-- a stall in the middle of an instruction, whose operands stay as its issue read them (R10) -/
  | latched (w : Wait) (ops : List Nat)
  | straggler (a : Nat)
  /-- A poisoned granule is consumed, at a local store address (R408). -/
  | ue (a : Nat)
  /-- A poisoned counter is read, by its address (R407, R408; notes/assumptions/94.md). -/
  | ueCtr (va : Nat)
  deriving DecidableEq, Repr

/-- What an instruction's checks and effect answer. -/
abbrev Res (α : Type) := Except Stop α

def trap {α : Type} (code value : Nat) : Res α := .error (.trap code value)
def stall {α : Type} (w : Wait) : Res α := .error (.wait w)
/-- Raise a trap unless a condition holds. -/
def need (ok : Bool) (code value : Nat) : Res Unit := if ok then .ok () else .error (.trap code value)

/-- The trap causes of R222. -/
def cILL : Nat := 1
def cPRIV : Nat := 2
def cALIGN : Nat := 3
def cLSPROT : Nat := 4
def cDIVZ : Nat := 7
def cFPINV : Nat := 8
def cBRK : Nat := 9
def cSVC : Nat := 10
def cWDOG : Nat := 11
def cMISMATCH : Nat := 12
def cRENNET : Nat := 14
def cOUTFULL : Nat := 15
def cCHFAULT : Nat := 16
def cMXBUSY : Nat := 17
def cMXCMD : Nat := 18
def cCTROVF : Nat := 19
def cFWDPOISON : Nat := 20
def cUE : Nat := 21

/-- The ILL trap value of a rule of the instruction itself: it names the base word (R92, R93). -/
def illValue (reason : Nat) (i : Instr) : Nat :=
  reason * 2 ^ 20 + preLen (preOf i) % 8 * 2 ^ 16 + (baseWord i).toNat

/-- The trap value of a chain that decoding rejects (R92). -/
def illOf (e : Ill) : Nat := e.reason.toNat * 2 ^ 20 + e.index.toNat * 2 ^ 16 + e.word.toNat

/-- ILL with REASON 8 unless a condition holds. -/
def need8 (ok : Bool) (i : Instr) : Res Unit := need ok cILL (illValue 8 i)

/-! ## Events that reach a core -/

/-- A message, sector, completion or wake-up ends every IDLE of the core (R108). -/
def endIdle (c : Core) : Core := { c with ctxs := c.ctxs.map (fun x => if x.wait = .idle then
  { x with wait := .none } else x) }

/-- An error record (R409) with its context and its time, the one that a read of TIME would find now. -/
def stampErr (e : ErrRec) (s : State) : ErrRec :=
  { e with time := (s.pkg.time + BitVec.ofNat 64 (Config.elapsed s.freeCtr)).toNat, asid := asidOfInst s e.inst }

/-- An error record sent to an instance (R409). -/
def logErr (e : ErrRec) (s : State) : State := updPkg (fun k => { k with errs := k.errs ++ [stampErr e s] }) s

/-- A unit records an event in its bank (R410); `corrected` events have CAUSE 1, uncorrectable ones `ue`. -/
def bankTake (e : ErrRec) (b : Bank) : Bank :=
  let corrected := e.cause == 1
  let held := match b.record with | some r => if r.cause == 1 then 1 else 2 | none => 0
  { record := if held = 0 || (held = 1 && !corrected) then some e else b.record
    cecnt := if corrected then min (b.cecnt + 1) (2 ^ 24 - 1) else b.cecnt
    uecnt := if e.ue then min (b.uecnt + 1) (2 ^ 32 - 1) else b.uecnt
    ovfCe := b.ovfCe || (corrected && held != 0)
    ovfUe := b.ovfUe || (!corrected && held == 2) }

/-- Record an event in the bank of its unit; a corrected or uncorrectable one with its syndrome. -/
def bankErr (e : ErrRec) (s : State) : State :=
  let found := e.cause == 1 || e.cause == 2
  let e := if found then { e with detail := (Config.syndrome s.freeCtr).toNat } else e
  let t := updPkg (fun k => { k with banks := put e.unit (bankTake (stampErr e s) ((look e.unit k.banks).getD {})) k.banks }) s
  if found then { t with freeCtr := s.freeCtr + 1 } else t

/-- Unit numbers (R409): a core, and the L2 slice of a cluster. -/
def coreUnit (k : Nat) : Nat := dieOf k * 2 ^ 16 + k % 4096
def sliceUnit (die i : Nat) : Nat := die * 2 ^ 16 + 2 * 2 ^ 12 + i

/-- Does a core run the activation of an instance that it dispatched as number `stamp`? -/
def owns (c : Core) (stamp inst : Nat) : Bool :=
  c.actCount.toNat == stamp && (match c.act with | some a => a.inst == inst | none => false)

/-- A cause becomes pending (R220). -/
def addCause (code value : Nat) (c : Core) : Core :=
  { c with act := c.act.map (fun a => { a with pending := a.pending ++ [{ code := code, value := value }] }) }

/-- An asynchronous cause for the activation that core k dispatched as number `stamp`, if it is still live, displaced or not (R220). -/
def pendLive (k stamp inst code value : Nat) (s : State) : Option State :=
  let c := coreOf s k
  if owns c stamp inst then some (setCore k (addCause code value c) s)
  else if s.pkg.saves.any (fun x => x.core == k && owns x.image stamp inst) then
    some (updPkg (fun g => { g with saves := g.saves.map (fun x =>
      if x.core == k && owns x.image stamp inst then { x with image := addCause code value x.image } else x) }) s)
  else none

/-- The same; an error record reaches the instance when the activation is over (R203). -/
def pend (k stamp inst code value errCause : Nat) (s : State) : State :=
  (pendLive k stamp inst code value s).getD (logErr { inst := inst, core := k, cause := errCause, detail := value } s)

/-! ## What the primary reads (R301) -/

/-- The next leader-sourced value of the issuing context, as the primary has read it. -/
def leaderNext (s : State) : Option Nat :=
  ((coreOf s (leadCore s)).ctxs.getD s.core.cur {}).leadLog[(ctx s).leadPos]?

/-- A leader-sourced read (R301): the primary reads and records the value, a secondary takes the primary's. -/
def leaderRead (s : State) (own : State → Nat × State) : Res (Nat × State) :=
  if !redundant s then .ok (own s)
  else if !secondary s then
    let pos := (ctx s).leadPos
    let r := own s
    .ok (r.1, setCtx (fun x => { x with leadLog := x.leadLog.take pos ++ [r.1], leadPos := pos + 1 }) r.2)
  else match leaderNext s with
    | some v => .ok (v, setCtx (fun x => { x with leadPos := x.leadPos + 1 }) s)
    | none => stall .leader

/-- An acquire at a scope as an instruction makes it (R217). A secondary's shadow copies lose the sectors that the primary's lose there
(R268, R303): that set is leader-sourced, as a number with one bit for each sector of the four windows. -/
def acquire (scope : Nat) (s : State) : Res State :=
  if !redundant s then .ok (acquireAt scope s)
  else do
    let set := fun (t : State) => (acquireSet scope t).foldl (fun m x => m + 2 ^ (1024 * x.1 + x.2)) 0
    let r ← leaderRead s (fun t => (set t, t))
    .ok (updCore (invalidateAll (fun i n => r.1.testBit (1024 * i + n))) r.2)

/-! ## Message headers (R188) -/

/-- A header from its fields. -/
def mkHdr (item core pkg inst type vq g pri vt : Nat) : BitVec 128 :=
  BitVec.ofNat 128 (vt % 16 + pri % 4 * 2 ^ 4 + g % 16 * 2 ^ 6 + vq % 4 * 2 ^ 10 + type % 1024 * 2 ^ 12 + inst % 65536 * 2 ^ 22 +
    pkg % 4096 * 2 ^ 38 + core % 16384 * 2 ^ 50 + item * 2 ^ 64)

def hItem (h : BitVec 128) : Nat := bits h.toNat 127 64
def hCore (h : BitVec 128) : Nat := bits h.toNat 63 50
def hPkg (h : BitVec 128) : Nat := bits h.toNat 49 38
def hInst (h : BitVec 128) : Nat := bits h.toNat 37 22
def hType (h : BitVec 128) : Nat := bits h.toNat 21 12
def hVq (h : BitVec 128) : Nat := bits h.toNat 11 10
def hG (h : BitVec 128) : Nat := bits h.toNat 9 6
def hPri (h : BitVec 128) : Nat := bits h.toNat 5 4
def hVt (h : BitVec 128) : Nat := bits h.toNat 3 0

/-- The delivered form: CORE and PKG name the sender (R188). -/
def delivered (k pkg : Nat) (h : BitVec 128) : BitVec 128 :=
  mkHdr (hItem h) k pkg (hInst h) (hType h) (hVq h) (hG h) (hPri h) (hVt h)

/-! ## Counters -/

/-- The counter page that holds an address (R286). -/
def ctrPage (s : State) (asid va : Nat) : Option CtrPage :=
  s.pkg.ctrPages.find? (fun p => p.asid == asid && p.va ≤ va && va < p.va + 4096)

/-- A counter's value; 0 until an add (R286). -/
def ctrVal (s : State) (asid va : Nat) : Nat :=
  match s.pkg.ctrs.find? (fun c => c.asid == asid && c.va == va) with | some c => c.val | none => 0

/-- Is a counter poisoned (R405, R407)? -/
def ctrBad (s : State) (asid va : Nat) : Bool :=
  match s.pkg.ctrs.find? (fun c => c.asid == asid && c.va == va) with | some c => c.bad | none => false

/-- A counter takes a value, and a mark or none. -/
def putCtr (asid va v : Nat) (bad : Bool) (s : State) : State :=
  updPkg (fun k => { k with ctrs := k.ctrs.filter (fun c => !(c.asid == asid && c.va == va)) ++ [⟨asid, va, v, bad⟩] }) s

/-- A counter takes the value of an add, which leaves its mark (R407; notes/assumptions/94.md). -/
def setCtr (asid va v : Nat) (s : State) : State := putCtr asid va v (ctrBad s asid va) s

/-- A read of a counter by a context consumes its mark (R407). -/
def readableCtr (s : State) (asid va : Nat) : Res Unit := if ctrBad s asid va && !secondary s then .error (.ueCtr va) else .ok ()

/-- The checks of a counter address (R183). -/
def checkCtr (s : State) (asid va : Nat) : Res Unit := do
  need (va % 8 = 0) cALIGN va
  need (ctrPage s asid va).isSome cPRIV va

/-- The narrowest scope that holds a core and a home cluster (R183, R252). -/
def scopeTo (k home : Nat) : Nat := if clusterOf k = home then 1 else if dieOf k = home / 256 then 2 else 3

/-- The narrowest scope that holds two cores of a package (R252). -/
def scopeOf (j k : Nat) : Nat := if j = k then 0 else scopeTo j (clusterOf k)

def ctrScope (s : State) (asid va : Nat) : Nat :=
  match ctrPage s asid va with | some p => scopeTo (leadCore s) p.home | none => 3

/-- A CWAIT is woken: it issues again (R288). -/
def endCwait (x : Ctx) : Ctx := match x.wait with | .cwait _ _ => { x with wait := .none } | _ => x

/-- The counter store wakes the waiters that a value satisfies (R288): their CWAIT issues again and reads it. -/
def wake (asid va v : Nat) (s : State) : State :=
  let due := s.pkg.waiters.filter (fun w => w.asid == asid && w.va == va && w.th ≤ v)
  let t := updPkg (fun k => { k with waiters := k.waiters.filter (fun w => !(w.asid == asid && w.va == va && w.th ≤ v)) }) s
  due.foldl (fun t w =>
    let c := coreOf t w.core
    setCore w.core (endIdle { c with ctxs := mapAt endCwait w.ctx c.ctxs }) t) t

/-- Registered arms that a value satisfies fire once, in the order of registration (R193, R294). -/
def fireArms (asid va v : Nat) (s : State) : State :=
  let due := fun (a : Arm) => a.registered && a.asid == asid && a.va == va && decide (a.th ≤ v)
  let acq := fun (k : Nat) => match ctrPage s asid va with | some p => some (scopeTo k p.home) | none => none
  updPkg (fun k => { k with
    arms := k.arms.filter (fun a => !due a)
    armOut := k.armOut ++ (k.arms.filter due).map (fun a =>
      { msg := { a.msg with hdr := delivered a.core k.pkgId.toNat a.msg.hdr, acq := acq (hCore a.msg.hdr) }, src := a.core, ctx := a.ctx,
        dest := hCore a.msg.hdr, pkg := hPkg a.msg.hdr, inst := a.inst }) }) s

/-- The error record of a discarded arm goes to the arming instance while it exists, and to its controller otherwise (R294). -/
def armDiscarded (a : Arm) (s : State) : State :=
  if (look a.inst s.pkg.insts).isSome then logErr { inst := a.inst, core := a.core, cause := 11, detail := a.va } s
  else updPkg (fun g => { g with
    ctlErrs := g.ctlErrs ++ [{ stampErr { inst := a.inst, core := a.core, cause := 11, detail := a.va } s with asid := a.asid }] }) s

/-- One add takes effect (R184), or is discarded when its page is gone (R420). -/
def applyAdd (a : Add) (s : State) : State :=
  if (ctrPage s a.asid a.va).isNone then logErr { inst := a.inst, core := a.core, cause := 14, detail := a.va } s
  else
    let v := ctrVal s a.asid a.va + a.inc
    if v < 2 ^ 64 then fireArms a.asid a.va v (wake a.asid a.va v (setCtr a.asid a.va v s))
    else
      let m := 2 ^ 64 - 1
      let t := logErr { inst := a.inst, core := a.core, cause := 6, detail := a.va }
        (fireArms a.asid a.va m (wake a.asid a.va m (setCtr a.asid a.va m s)))
      (pendLive a.core a.stamp a.inst cCTROVF a.va t).getD t

/-- The adds of core k's own contexts to one counter that are still on their way take effect in their order: what a read of
that counter by the same core finds (R287). -/
def drainAdds (k asid va : Nat) (s : State) : State :=
  let mine := fun (a : Add) => a.core == k && a.asid == asid && a.va == va
  (s.pkg.adds.filter mine).foldl (fun t a => applyAdd a t)
    (updPkg (fun g => { g with adds := g.adds.filter (fun a => !mine a) }) s)

end Sys2Proof.Machine
end

