-- ==== Sys2Proof/Machine/Segment.lean ====
section
/-! DEFINITION. Segments (R248 to R251): snapshots, event records and signatures (R305 to R308), commit and rollback; the end of an
activation (R102, R104, R225, R226), its exports (R239) and a request's completion (R329). -/

namespace Sys2Proof.Machine

/-! ## Signatures -/

/-- One bit of SIG-64 (R307). -/
def sigBit (c : BitVec 64) : BitVec 64 := if c.msb then (c <<< 1) ^^^ 0x42F0E1EBA9EA3693#64 else c <<< 1

/-- One byte of SIG-64, from bit 7 down. -/
def sigByte (c : BitVec 64) (b : Byte) : BitVec 64 :=
  sigBit (sigBit (sigBit (sigBit (sigBit (sigBit (sigBit (sigBit (c ^^^ (b.setWidth 64 <<< 56)))))))))

/-- SIG-64 of bytes, from c. -/
def sig64 (c : BitVec 64) (bs : List Byte) : BitVec 64 := bs.foldl sigByte c

/-- An event record (R306). -/
def recordOf (kind ctx len aux addr data : Nat) : BitVec 256 :=
  BitVec.ofNat 256 (kind % 256 + ctx % 16 * 2 ^ 12 + len % 256 * 2 ^ 16 + aux % 2 ^ 32 * 2 ^ 32 + addr % 2 ^ 64 * 2 ^ 64 +
    data % 2 ^ 128 * 2 ^ 128)

/-- Record an output of the issuing context in PAIR and TRIAD modes (R305). -/
def note (kind len aux addr data : Nat) (s : State) : State :=
  if redundant s then
    setCtx (fun x => { x with records := x.records ++ [recordOf kind s.core.cur len aux addr data] }) s
  else s

/-- CTXSIG of a context's records (R307). -/
def ctxSig (rs : List (BitVec 256)) : BitVec 64 := rs.foldl (fun c r => sig64 c (bytesLE r.toNat 32)) 0

/-! ## Snapshots (R24) -/

/-- The snapshot record of a context over a local store. -/
def snapOf (ls : Memory) (x : Ctx) : Memory :=
  writeLE (writeLE (writeLE (writeLE (memSlice ls x.wp.toNat 1536) 1536 8 x.pc.toNat) 1544 8 (withLa (laOf x) x.flg)) 1552 8 x.repst.toNat)
    1560 8 x.wp.toNat

/-- The bytes of a record that REGSIG covers, those outside the window, FLG.LA and WP read as 0 (R308). -/
def regSig (nw nv : Nat) (r : Memory) : BitVec 64 :=
  sig64 0 ((List.range 1568).map (fun j =>
    if (8 * nw ≤ j && j < 512) || (512 + 64 * nv ≤ j && j < 1536) || 1560 ≤ j then 0
    else if j = 1547 then memRead r j &&& 0xF0 else memRead r j))

/-- Where a context of the core stands in the middle of its instruction. -/
def midOf (own : Bool) (ls : Memory) (x : Ctx) : Mid :=
  { pc := x.pc, stage := x.stage, ops := x.ops, wait := x.wait, repst := x.repst, w15 := readLE ls (x.wp.toNat + 120) 8, longs := x.longs,
    own := own }

/-- The issuing context goes on waiting in an instruction whose commit point is made: a rollback returns it to this place (R250). -/
def holdMid (s : State) : State := setCtx (fun x => { x with mid := some (midOf true s.core.ls x) }) s

/-- Every live context's snapshot is taken; `nxt` gives the state after the commit point, for the issuing context's. Another context
may be in the middle of an instruction that has made its own commit point: its place there is kept beside the record. -/
def takeSnaps (h : Option Nat) (nxt : State → State) (s : State) : State :=
  let u := nxt s
  updCore (fun c => { c with ctxs := (List.range c.ctxs.length).map (fun i =>
    let x := c.ctxs.getD i {}
    if x.live && (h.isNone || h == some i) then
      { x with snap := some (if i = c.cur then snapOf u.core.ls (ctx u) else snapOf c.ls x)
               snapLongs := (if i = c.cur then ctx u else x).longs.filter (fun l => !l.written), snapTrap := x.inTrap, snapOuter := x.outer,
               mid := if i ≠ c.cur && x.stage != 0 then some (midOf false c.ls x) else none, snapBad := false, firstSeg := false, replays := 0,
               journal := [], records := [], leadSnap := x.leadPos, ueAt := [] }
    else x) }) s

/-! ## Completions (R329) -/

/-- The queue engine writes a completion entry and adds to COMPL, once for each request. -/
def completeReq (qid : Nat) (tag : Word) (status cls : Nat) (rt0 rt1 : Word) (s : State) : State :=
  match look qid s.pkg.queues with
  | none => s
  | some q =>
    let c := ctrVal s q.asid q.compl
    let e := bytesLE (status % 256 + cls % 4 * 2 ^ 16) 8 ++ bytesLE rt0.toNat 8 ++ bytesLE rt1.toNat 8 ++ bytesLE tag.toNat 8
    applyAdd { asid := q.asid, va := q.compl, inc := 1, core := s.core.id, inst := q.inst, stamp := 0 }
      (asCreamery (homeWrite q.asid (q.cring + 32 * (c % 2 ^ q.n)) e) s)

/-- The completion of the running activation's request, if it has one and none is written yet. -/
def completeAct (status cls : Nat) (rt0 rt1 : Word) (s : State) : State :=
  match s.core.act with
  | some a =>
    match a.trig.req with
    | some (qid, tag) =>
      if a.completed || secondary s then s
      else updAct (fun a => { a with completed := true }) (completeReq qid tag status cls rt0 rt1 s)
    | none => s
  | none => s

/-! ## Commit (R249) -/

/-- One held output leaves the core. Messages and adds are releases at the scope of R191 and R194. -/
def leave (e : Held) (s : State) : State :=
  let k := s.core.id
  let asid := asidOf s
  match e.out with
  | .msg m =>
    let sc := if hPkg m.hdr = s.pkg.pkgId.toNat then scopeOf k (hCore m.hdr) else 4
    updPkg (fun g => { g with msgs := g.msgs ++ [{
      msg := { m with hdr := delivered k g.pkgId.toNat m.hdr }, src := k, ctx := e.ctx, dest := hCore m.hdr, pkg := hPkg m.hdr, inst := actInst s, seq := e.seq }] })
      (flushNow (fun d => inSet k sc d.die) s)
  | .reply m => completeAct 0 (hPri m.hdr) m.t0 m.t1 s
  | .arm va th m =>
    updPkg (fun g => { g with arms := g.arms ++ [{ asid := asid, va := va, th := th, msg := m, core := k, ctx := e.ctx,
                                                   inst := actInst s }] }) s
  | .add va inc =>
    updPkg (fun g => { g with adds := g.adds ++ [{ asid := asid, va := va, inc := inc, core := k, inst := actInst s,
                                                   stamp := s.core.actCount.toNat }] })
      (flushNow (fun d => inSet k (ctrScope s asid va) d.die) s)
  | .stash va bs => commitBytes ((List.range bs.length).map (fun i => (va + i, bs.getD i 0, e.bad))) s
  | .nt va bs =>
    let x : NtStore := { asid := asid, va := va, bytes := bs, core := k, ctx := e.ctx, inst := actInst s, stamp := s.core.actCount.toNat }
    updPkg (fun g => { g with nts := g.nts ++ [x] }) (flushSectors (ntPas s x) s)

/-- Local store ranges of a copy command (R200): start and length of each row. -/
def copyRanges (e : CopyCmd) : List (Nat × Nat) :=
  let x := e.cmd.toNat
  let lsa := bits x 95 64
  let len := bits x 127 96
  match bits x 7 0 with
  | 1 => [(lsa, len)]
  | 2 => (List.range (bits x 255 224)).map (fun i => (lsa + i * bits x 223 192, len))
  | 3 => if bit x 8 then [] else [(lsa, len)]
  | _ => []

/-- The source bytes of an outbound command as the local store holds them, those for which `fresh` does not say so as they were
before: what the channel may have read (R202, R7). -/
def sampled (fresh : Nat → Bool) (ls : Memory) (e : CopyCmd) : CopyCmd :=
  if e.cmd.toNat.testBit 8 then
    { e with olds := (copyRanges e).flatMap (fun r => (List.range r.2).map (fun i =>
        let a := r.1 + i
        (a, if fresh a then memRead ls a else ((look a e.olds).getD (memRead ls a))))) }
  else e

/-- Does an output or push of context c belong to the segment of h (none: the whole activation)? -/
def inSeg (h : Option Nat) (c : Nat) : Bool := h.isNone || h == some c

/-- The pushes of the segment become committed; its storage commands are submitted in push order (R178, R199, R204). The releases
that its copy and storage pushes make take effect, also that of a copy which is over (R266). -/
def commitPushes (h : Option Nat) (s : State) : State :=
  let k := s.core.id
  let t := if secondary s then s
    else (s.core.pushRel.filter (fun r => inSeg h r.1)).foldl (fun t r => flushNow (fun d => inSet k r.2 d.die) t) s
  let sto := t.core.stoHeld.filter (fun e => inSeg h e.ctx)
  let t := updPkg (fun g => { g with sto := g.sto ++ (if secondary t then [] else sto) }) t
  updCore (fun c => { c with
    chans := c.chans.map (fun ch => { ch with q := (if secondary t then ch.q.filter (fun e => !inSeg h e.ctx)
      else ch.q.map (fun e => if inSeg h e.ctx && !e.committed then sampled (fun _ => true) c.ls { e with committed := true } else e)) })
    mxu := { c.mxu with q := c.mxu.q.map (fun e => if inSeg h e.ctx then { e with committed := true } else e) }
    inPushes := c.inPushes.filter (fun x => !inSeg h x.2.ctx)
    pushRel := c.pushRel.filter (fun r => !inSeg h r.1)
    stoHeld := c.stoHeld.filter (fun e => !inSeg h e.ctx) }) t

/-- Is an output a store, which leaves before the tagged bytes of its segment: they were stored after it? -/
def isStore (o : Output) : Bool := match o with | .nt _ _ | .stash _ _ => true | _ => false

/-- What stays held when the outputs of h leave: stash bytes that a later non-temporal store among them has overwritten are over
(R251, R256). -/
def stillHeld (h : Option Nat) : List Held → List Held
  | [] => []
  | e :: r =>
    let covers := fun (va : Nat) => r.any (fun x => inSeg h x.ctx && (match x.out with | .nt lo bs => lo ≤ va && va < lo + bs.length | _ => false))
    if inSeg h e.ctx || (match e.out with | .stash va _ => covers va | _ => false) then stillHeld h r else e :: stillHeld h r

/-- The held outputs of the segment. -/
def heldOf (h : Option Nat) (s : State) : List Held :=
  match s.core.act with | some a => a.held.filter (fun e => inSeg h e.ctx) | none => []

/-- The segment commits in one step. `nxt` gives the issuing context as the snapshot records it. A secondary's outputs are
discarded (R312). Held stores leave first: the tagged bytes of the segment were stored after them (R134). -/
def commitSeg (nxt : State → State) (s : State) : State :=
  let h := if redundant s then some s.core.cur else none
  let outs := heldOf h s
  let send := fun (p : Output → Bool) (t : State) => if secondary s then t else (outs.filter (fun e => p e.out)).foldl (fun t e => leave e t) t
  let t := send (fun o => !isStore o) (commitPushes h (commitStash h (send isStore s)))
  let t := updAct (fun a => { a with
    held := stillHeld h a.held, retained := false
    replySeg := if (a.replySeg.map (inSeg h)).getD false then none else a.replySeg }) t
  takeSnaps h nxt t

/-! ## Votes (R309 to R311) -/

/-- The group of the running activation: its replica cores, the primary first. -/
def groupOf (s : State) : List Nat := match s.core.act with | some a => a.group | none => []

/-- Has an engine of this replica consumed a UE since its last vote (R180, R316)? -/
def engineUe (s : State) : Bool := match s.core.act with | some a => a.pending.any (·.code == cUE) | none => false

/-- The issuing context takes its snapshot, sends its vote and stalls for the verdict. A replica whose MXU has consumed a UE fails it
(R316), that of an ABORT too. -/
def sendVote (kind : Nat) (nxt : State → State) (s : State) : State :=
  let kind := if kind < 4 && engineUe s then 4 else kind
  let s := updAct (fun a => { a with pending := a.pending.filter (·.code != cUE) }) (flushLongs s)
  let x := ctx s
  let w := windowOf s
  let r := snapOf (nxt s).core.ls (ctx (nxt s))
  let v : Vote := { core := s.core.id, group := groupOf s, ctx := s.core.cur, addr := x.pc.toNat, count := x.records.length,
                    ctxsig := ctxSig x.records, regsig := regSig w.1 w.2 r, kind := kind }
  block .verdict (setCtx (fun y => { y with cand := some r })
    (updPkg (fun k => { k with votes := k.votes ++ [v] }) s))

/-! ## What a rollback restores (R250) -/

/-- Bytes written back into the local store from a record: the window's w and v registers. -/
def restoreRegs (nw nv : Nat) (r : Memory) (wp : Nat) (m : Memory) : Memory :=
  writeBytes (writeBytes m wp (readBytes r 0 (8 * nw))) (wp + 512) (readBytes r 512 (64 * nv))

/-- Context h returns to its snapshot: to the record (reserved bits of FLG and REPST read 0, R5), or into the middle of an instruction that
has made its commit point, which it goes on with (R250). A helper that has none was started in the open segment: in single mode it
has not started, in PAIR and TRIAD modes it returns to its start (R310). -/
def restoreCtx (nw nv h : Nat) (c : Core) : Core :=
  let x := c.ctxs.getD h {}
  if !x.live then c
  else match x.snap with
    | some r =>
      let wp := readLE r 1560 8
      let ls := restoreRegs nw nv r wp c.ls
      { c with
        ls := (match x.mid with | some m => if 15 < nw then writeLE ls (wp + 120) 8 m.w15 else ls | none => ls)
        poison := unmark wp (8 * nw) (unmark (wp + 512) (64 * nv) c.poison)
        ctxs := mapAt (fun x => { x with
          pc := ((x.mid.map (·.pc)).getD (BitVec.ofNat 64 (readLE r 1536 8)))
          flg := BitVec.ofNat 64 (readLE r 1544 8) &&& 0x1FFF1F
          repst := ((x.mid.map (·.repst)).getD (BitVec.ofNat 64 (readLE r 1552 8) &&& 0xFFFFFFFF7FFFFFFE))
          wp := BitVec.ofNat 64 wp, inTrap := x.snapTrap, outer := x.snapOuter, heldTrap := none, acquired := false
          wait := ((x.mid.map (·.wait)).getD .none), stage := ((x.mid.map (·.stage)).getD 0), ops := ((x.mid.map (·.ops)).getD [])
          longs := ((x.mid.map (·.longs)).getD x.snapLongs)
          journal := [], records := [], leadPos := x.leadSnap, leadLog := x.leadLog.take x.leadSnap }) h c.ctxs }
    | none =>
      if (match c.act with | some a => a.redm == 0 | none => true) then { c with ctxs := mapAt (fun _ => {}) h c.ctxs }
      else { c with ctxs := mapAt (fun x => { x with
          pc := x.startPc, wp := x.startWp, flg := flgReset, repst := 0, inTrap := false, outer := 0, heldTrap := none, wait := .none, stage := 0, ops := [], longs := []
          journal := [], records := [], leadPos := 0, leadLog := [] }) h c.ctxs }

/-- The journalled bytes of context h return, the latest first (R313). -/
def undoJournal (h : Nat) (c : Core) : Core :=
  { c with ls := (c.ctxs.getD h {}).journal.foldl (fun m e => writeBytes m e.1 e.2) c.ls }

/-! ## Pins (R276) -/

/-- The lines of physical memory that a range of an address space lies in. -/
def linesAt (s : State) (asid va n : Nat) : List Nat :=
  ((List.range ((va % 64 + n + 63) / 64)).filterMap (fun i => (paOf s asid (va / 64 * 64 + 64 * i)).map (· / 256))).eraseDups

/-- Does a queued or running MMA of a core still fetch a tile from a line, for the operands that its skimmer fetches? -/
def fetchesLine (s : State) (c : Core) (line : Nat) : Bool :=
  c.mxu.q.any (fun e => isMma (mOp e.cmd) && [false, true].any (fun b =>
    mmaSrc e.cmd b == 1 &&
      (let done := if e.begun then e.step + (if b then c.mxu.skimB else c.mxu.skimA).length else 0
       (List.range (mmaKt e.cmd - done)).any (fun i =>
         (linesAt s (asidOfInst s e.inst) (mmaAdr e.cmd b + (done + i) * mmaStep e.cmd b) (tileRead e.cmd (mmaCode e.cmd b))).contains line))))

/-- Pins stay until every edge member whose queued or running MMA names the line has received it, and go with an MMA that is removed or
saved (R276, R285). -/
def trimPins (s : State) : State :=
  if s.pkg.skimPins = [] then s
  else updPkg (fun g => { g with skimPins := g.skimPins.filter (fun l => (coreIds s).any (fun k => fetchesLine s (coreOf s k) l)) }) s

/-- Pushes of the segment that have not begun go (R178, R199, R204). A channel that one of them has opened stays open
(notes/assumptions/90.md). -/
def dropPushes (h : Option Nat) (c : Core) : Core :=
  { c with
    chans := c.chans.map (fun ch => { ch with q := ch.q.filter (fun e => e.begun || e.committed || !inSeg h e.ctx) })
    mxu := { c.mxu with q := c.mxu.q.filter (fun e => e.begun || e.committed || !inSeg h e.ctx) }
    inPushes := c.inPushes.filter (fun x => !inSeg h x.2.ctx)
    pushRel := c.pushRel.filter (fun r => !inSeg h r.1)
    stoHeld := c.stoHeld.filter (fun e => !inSeg h e.ctx) }

/-- Sectors over which a held store has been laid become invalid when it is discarded (R250, R259). -/
def forgetNts (hs : List Held) (c : Core) : Core :=
  { c with wins := c.wins.map (Option.map (fun w => { w with valid := w.valid.filter (fun n =>
      !hs.any (fun e => match e.out with | .nt va bs | .stash va bs => meets (w.va + 64 * n) 64 va bs.length | _ => false)) })) }

/-- Held outputs, pushes and tagged stash bytes of the open segment are discarded, and the first `send.reply` with them (R250, R104,
R192). -/
def discardSeg (h : Option Nat) (s : State) : State :=
  let outs := heldOf h s
  trimPins (updAct (fun a =>
      let undone := (a.replySeg.map (inSeg h)).getD false
      { a with
        held := a.held.filter (fun e => !inSeg h e.ctx)
        replied := a.replied && !undone, replySeg := if undone then none else a.replySeg })
    (updCore (fun c => forgetNts outs (discardStash h (dropPushes h c))) s))

/-- A core of a gang leaves it; the last one remaining is ALONE (R231). -/
def leaveGang (s : State) : State :=
  match s.core.gang with
  | .coupled mask tag =>
    let t := updCore (fun c => { c with gang := .alone }) s
    let cl := clusterOf s.core.id
    let rest := (List.range 16).filter (fun i => (coreOf t (16 * cl + i)).gang == .coupled mask tag)
    match rest with
    | [i] => setCore (16 * cl + i) { coreOf t (16 * cl + i) with gang := .alone } t
    | _ => t
  | .arrived _ _ => updCore (fun c => { c with gang := .alone }) s
  | .alone => s

/-- An unmatched arrival of the core is withdrawn (R231). -/
def withdrawArrival (c : Core) : Core :=
  { c with gang := match c.gang with | .arrived _ _ => .alone | g => g }

/-- The waits of context h at counter stores are over (R197). -/
def dropWaiters (h : Nat) (s : State) : State :=
  updPkg (fun k => { k with waiters := k.waiters.filter (fun w => !(w.core == s.core.id && w.ctx == h)) }) s

/-- The entries that the ending item read become free (R239). -/
def freeImports (c : Core) : Core :=
  match c.act with
  | none => c
  | some a =>
    match a.stage with
    | none => c
    | some g =>
      { c with fwd := c.fwd.map (fun f =>
          let old := fun (j st : Nat) => st == a.strm && j < a.item && a.item ≤ j + g.k
          match f with
          | .empty => .empty
          | .valid j st vs => if old j st then .empty else .valid j st vs
          | .poison j st => if old j st then .empty else .poison j st) }

/-- ENDED of the version that the activation was dispatched into rises by 1, with the release of an add (R383). -/
def endCount (s : State) : State :=
  match s.core.act with
  | some a =>
    match look a.inst s.pkg.insts with
    | some x =>
      match x.versions.find? (fun v => v.tag == a.vtag) with
      | some v =>
        if v.upc = 0 || secondary s then s
        else
          let k := s.core.id
          updPkg (fun g => { g with adds := g.adds ++ [{ asid := x.asid, va := v.upc + 8, inc := 1, core := k, inst := a.inst, stamp := 0 }] })
            (flushNow (fun d => inSet k (ctrScope s x.asid (v.upc + 8)) d.die) s)
      | none => s
    | none => s
  | none => s

/-- What the contexts of the core have at counter stores and in the vote unit goes with the activation: waits and votes. -/
def withdraw (s : State) : State :=
  updPkg (fun k => { k with
    waiters := k.waiters.filter (fun w => w.core != s.core.id)
    votes := k.votes.filter (fun v => v.core != s.core.id)
    unit := k.unit.filter (fun v => v.core != s.core.id) }) s

/-- Every context stops being live and the activation is over; slots that were revoked while it ran go (R331). -/
def closeAct (s : State) : State :=
  let s := endCount s
  let mine := some (s.core.actCount.toNat, actInst s)
  updCore (fun c => { freeImports c with
    act := none, memQ := [], ctxs := List.replicate 11 {}, slots := c.slots.filter (fun x => x.2.revoked != mine) }) (leaveGang (withdraw s))

/-- The activation returns to PENDING: its message goes to the head of its source, with what is kept with it (R225). A secondary
retains none (R300). -/
def toPending (s : State) : State :=
  match s.core.act with
  | none => s
  | some a =>
    let x := ctxAt s 0
    let m := { a.trig with replays := x.replays, ueAt := x.ueAt, toNewest := a.redeliver, ran := some s.core.actCount.toNat, done := a.completed }
    let t := updCore (fun c => { c with act := none, memQ := [], ctxs := List.replicate 11 {} })
      (leaveGang (endCount (withdraw s)))
    if a.redm != 0 && a.rplc != 0 then t
    else updCore (fun c => match a.source with
      | 1 => { c with inbound := m :: c.inbound }
      | 2 => { c with ready := m :: c.ready }
      | _ => { c with items := { strm := a.strm, index := a.item, msg := m, again := true } :: c.items }) t

/-! ## The end of an activation -/

/-- The values of the exports as the control context's registers hold them. -/
def latched (s : State) : List Word :=
  match s.core.act with
  | some a => match a.stage with | some g => g.exports.map (fun n => BitVec.ofNat 64 (regW s n)) | none => []
  | none => []

/-- Exports go to the members that read them at distances 1 to K; no values: poisoned (R239). Secondaries send none (R323). Their reads
acquire what the item has committed (R240): each is a release at the scope that contains both cores. -/
def sendExports (vals : Option (List Word)) (s : State) : State :=
  match s.core.act with
  | some a =>
    match a.stage with
    | some g =>
      if secondary s then s
      else
        let k := s.core.id
        let dests := (List.range g.k).map (fun d => g.group.getD ((a.item + d + 1) % max g.group.length 1) 0)
        let sc := (dests.map (scopeOf k)).foldl max 0
        updPkg (fun k => { k with exps := k.exps ++ dests.map (fun d =>
          { inst := a.inst, strm := a.strm, item := a.item, vals := vals, dest := d }) }) (flushNow (fun d => inSet k sc d.die) s)
    | none => s
  | none => s

/-- The activation ends after its final commit point (R102). -/
def endAct (vals : Option (List Word)) (s : State) : State :=
  closeAct (completeAct 1 0 0 0 (sendExports vals s))

/-- The activation ends without a commit point: status of its request. -/
def stopAct (status : Nat) (s : State) : State :=
  let s := (List.range 11).foldl (fun t h => flushLongsAt h t) s
  let s := if redundant s then updCore (fun c => (List.range 11).foldl (fun c h => undoJournal h c) c) s else s
  let t := discardSeg none (updCore (fun c => if holdsLinked c then { c with mxu := { c.mxu with broken := true } } else c) s)
  closeAct (completeAct status 0 0 0 (sendExports none t))

/-- The activation ends as ABORT does (R104): the instance's abort count rises. -/
def abortAct (status : Nat) (s : State) : State :=
  let i := actInst s
  let t := stopAct status s
  if secondary s then t
  else updPkg (fun k => { k with insts := k.insts.map (fun x => if x.1 = i then (x.1, { x.2 with aborts := x.2.aborts + 1 }) else x) }) t

/-- The cores of the running activation: its replicas, the primary first. -/
def replicas (s : State) : List Nat := if redundant s then groupOf s else [s.core.id]

/-- The same on every replica of the running activation. -/
def everywhere (f : State → State) (s : State) : State := (replicas s).foldl (fun t k => withCore k t f) s

/-- The instance's generation on a core (GEN, R27). -/
def genOf (c : Core) (inst : Nat) : Nat := match look inst c.insts with | some x => x.gen | none => 0

/-- Klogar sends an instance the fault message of R421: to core k, about a fault that arose on core j. -/
def faultMsg (inst k j cause t0 : Nat) (s : State) : State :=
  updPkg (fun g => { g with msgs := g.msgs ++ [{
    msg := { hdr := mkHdr 0 k g.pkgId.toNat inst 1023 0 (genOf (coreOf s k) inst) 0 0, t0 := BitVec.ofNat 64 t0,
             t1 := BitVec.ofNat 64 (j % 16384 + cause % 256 * 2 ^ 32), klogar := true },
    src := k, ctx := 11, dest := k, pkg := g.pkgId.toNat, inst := inst }] }) s

/-- An activation fault (R226): as ABORT, with an error record and a fault message. -/
def activationFault (cause : Nat) (s : State) : State :=
  let pc := (ctx s).pc.toNat
  let i := actInst s
  let k := s.core.id
  match s.core.act with
  | none => s
  | some _ =>
    let t := abortAct 3 s
    if secondary s then t else faultMsg i k k cause pc (logErr { inst := i, core := k, cause := 7, detail := pc } t)

/-! ## Rollback and commit points -/

/-- A rollback of the open segment: the activation's in single mode, context h's own in PAIR and TRIAD modes; when the control context
returns to PENDING, those of the live helpers too (R225, R250, R310). A snapshot record that cannot be read ends the activation (R408). -/
def rollback (h : Nat) (s : State) : State :=
  let w := windowOf s
  let one := redundant s
  let first := match s.core.act with | some a => if one then h == 0 && (ctxAt s 0).firstSeg else a.retained | none => false
  let all := !one || first
  let undone := if one then (if all then List.range 11 else [h]) else []
  let t := discardSeg (if all then none else some h) (updCore (fun c => undone.foldl (fun c h => undoJournal h c) c) s)
  let t := if all then updPkg (fun k => { k with waiters := k.waiters.filter (fun w => w.core != s.core.id) }) t
    else updCore (fun c => { c with memQ := c.memQ.filter (· != h) }) (dropWaiters h t)
  if first then toPending t
  else if one then updCore (restoreCtx w.1 w.2 h) t
  else if s.core.ctxs.any (fun x => x.live && x.snapBad) then activationFault 0x84 s
  else (List.range 11).foldl (fun t i => updCore (restoreCtx w.1 w.2 i) t) (updCore withdrawArrival t)

/-- Does the entry of a held output of the segment hold an uncorrectable error (R408)? -/
def badHeld (s : State) : Bool := (heldOf (if redundant s then some s.core.cur else none) s).any (·.bad)

end Sys2Proof.Machine
end

