-- ==== Sys2Proof/Machine/Operands.lean ====
section
/-! DEFINITION. Operand forms: register numbers (R79, R85, R39), the window check (R19), immediates (R83), two-source and
one-source operands (R100, R181), and forwarded sources (R87, R240). -/

namespace Sys2Proof.Machine

/-! ## Register numbers -/

/-- The w number of field a, b or c. -/
def wA (p : Pre) (a : BitVec 4) : Nat := a.toNat + 16 * (match p.reg with | some r => r.aHi.toNat | none => 0)
def wB (p : Pre) (b : BitVec 4) : Nat := b.toNat + 16 * (match p.reg with | some r => r.bHi.toNat | none => 0)
def cNum (p : Pre) : Nat := match p.reg with | some r => r.c.toNat | none => 0

/-- The stagger of the bellows for vector numbers (R39). -/
def stagger (s : State) (n : Nat) : Nat :=
  let r := (ctx s).repst.toNat
  if repActive r then (n + repOffset r) % 16 else n

/-- The v number of field a, b or c. -/
def vA (s : State) (p : Pre) (a : BitVec 4) : Nat :=
  stagger s (a.toNat % 8 + 8 * (match p.reg with | some r => r.aHi.toNat % 2 | none => 0))
def vB (s : State) (p : Pre) (b : BitVec 4) : Nat :=
  stagger s (b.toNat % 8 + 8 * (match p.reg with | some r => r.bHi.toNat % 2 | none => 0))
def vC (s : State) (p : Pre) : Nat := stagger s (cNum p % 16)

/-- The lowest of some numbers. -/
def least : List Nat → Option Nat
  | [] => none
  | x :: xs => match least xs with | none => some x | some y => some (min x y)

/-- The window check (R19): the value names the lowest number outside, w numbers first (R146); then registers whose bytes lie in a stash window wait for their sector (R137,
R133), also the one that a forwarded operand replaces (notes/assumptions/74.md). -/
def names (s : State) (ws vs : List Nat) : Res Unit := do
  let w := windowOf s
  match least (ws.filter (fun n => w.1 ≤ n)) with
  | some n => trap cLSPROT (2 ^ 63 + n)
  | none =>
    match least (vs.filter (fun n => w.2 ≤ n)) with
    | some n => trap cLSPROT (2 ^ 63 + 2 ^ 8 + n)
    | none =>
      match needsFill s.core (ws.map (wAddr s) ++ vs.map (vAddr s)) with
      | some a => stall (.fill a)
      | none => .ok ()

/-- A read of a range of the local store consumes a poison mark (R407, R408). -/
def readable (s : State) (a n : Nat) : Res Unit := match poisonAt s.core a n with | some x => .error (.ue x) | none => .ok ()

/-- The reads of registers. -/
def reads (s : State) (ws vs : List Nat) : Res Unit := do
  if s.core.poison.isEmpty then .ok ()
  else do
    match ws.findSome? (fun n => poisonAt s.core (wAddr s n) 8) with
    | some x => .error (.ue x)
    | none => match vs.findSome? (fun n => poisonAt s.core (vAddr s n) 64) with
      | some x => .error (.ue x)
      | none => .ok ()

/-! ## Immediates -/

/-- The immediate of R83: PFX.I payloads in chain order, then the base field of width bw. -/
def immBits (p : Pre) (bw base : Nat) : Nat := p.imms.foldl (fun v x => v * 4096 + x.toNat) 0 * 2 ^ bw + base

def immWidth (p : Pre) (bw : Nat) : Nat := 12 * p.imms.length + bw

/-- Read signed; 0 for an immediate of no bits. -/
def immS (p : Pre) (bw base : Nat) : Int := sv (immBits p bw base) (immWidth p bw)

/-- A signed immediate as 64 bits. -/
def immS64 (p : Pre) (bw base : Nat) : Nat := narrow 64 (immS p bw base)

/-! ## Forwarded sources -/

/-- A forwarded operand: the register field replaced (false: b, true: c) and its value. -/
abbrev Forwarded := Option (Bool × Nat)

/-- The entry for an item in the forwarding buffers (R239). -/
def fwdEntry (c : Core) (item : Nat) : FwdState := c.fwd.getD (item % 32) .empty

/-- Read export n of the item at distance k (R240): the default before the first item, a stall, the value, or FWDPOISON. -/
def readExport (s : State) (k n : Nat) : Res Nat :=
  match s.core.act with
  | none => .ok 0
  | some a =>
    let i := match a.stage with | some g => (g.exports.findIdx? (· == n)).getD 0 | none => 0
    if a.item < k then .ok ((match a.stage with | some g => (g.defaults.getD i 0).toNat | none => 0))
    else
      match fwdEntry s.core (a.item - k) with
      | .empty => stall (.forward k n)
      | .valid j st vs => if j = a.item - k ∧ st = a.strm then .ok (vs.getD i 0).toNat else stall (.forward k n)
      | .poison j st => if j = a.item - k ∧ st = a.strm then trap cFWDPOISON (k * 2 ^ 8 + n) else stall (.forward k n)

/-- Is export n readable at distance k in this activation (R87)? -/
def exportOk (s : State) (k n : Nat) : Bool :=
  match s.core.act with
  | some a => a.strm != 0xFFFF && (match a.stage with | some g => k ≤ g.k && g.exports.contains n | none => false)
  | none => false

/-- The forwarded operand of a chain. `bSrc` and `cSrc` are the numbers of the w registers that fields b and c name when the
instruction reads them as sources (R87). The window check comes before its checks (notes/assumptions/74.md), the reads of registers
after them. -/
def forwarded (i : Instr) (s : State) (bSrc cSrc : Option Nat) : Res Forwarded :=
  match (preOf i).fwd with
  | none => .ok none
  | some f =>
    match (if f.onC then cSrc else bSrc) with
    | none => trap cILL (illValue 9 i)
    | some n =>
      if exportOk s f.k.toNat n then do
        let v ← readExport s f.k.toNat n
        .ok (some (f.onC, v))
      else trap cILL (illValue 9 i)

/-- The registers of fields b and c that the instruction still reads: a forwarded one is not read (R87). -/
def unreplaced (f : Forwarded) (b c : List Nat) : List Nat :=
  (match f with | some (false, _) => [] | _ => b) ++ (match f with | some (true, _) => [] | _ => c)

/-- The value of field b's or c's register, forwarded when the chain says so. -/
def srcB (s : State) (f : Forwarded) (n : Nat) : Nat := match f with | some (false, v) => v | _ => regW s n
def srcC (s : State) (f : Forwarded) (n : Nat) : Nat := match f with | some (true, v) => v | _ => regW s n

/-! ## The operands of R100 and R181 -/

/-- x and y of a two-source function with destination a. -/
def twoSrc (i : Instr) (s : State) (p : Pre) (a b : BitVec 4) : Res (Nat × Nat) :=
  match p.reg with
  | some _ => do
    names s [wA p a, wB p b, cNum p] []
    let f ← forwarded i s (some (wB p b)) (some (cNum p))
    reads s (unreplaced f [wB p b] [cNum p]) []
    .ok (srcB s f (wB p b), srcC s f (cNum p))
  | none => do
    names s [wA p a, wB p b] []
    let f ← forwarded i s (some (wB p b)) none
    reads s ([wA p a] ++ unreplaced f [wB p b] []) []
    .ok (regW s (wA p a), srcB s f (wB p b))

/-- x and y of a two-source function without destination: with PFX.R field a names nothing (R114, R181). -/
def twoSrcNoDst (i : Instr) (s : State) (p : Pre) (a b : BitVec 4) : Res (Nat × Nat) :=
  match p.reg with
  | some _ => do
    names s [wB p b, cNum p] []
    let f ← forwarded i s (some (wB p b)) (some (cNum p))
    reads s (unreplaced f [wB p b] [cNum p]) []
    .ok (srcB s f (wB p b), srcC s f (cNum p))
  | none => do
    names s [wA p a, wB p b] []
    let f ← forwarded i s (some (wB p b)) none
    reads s ([wA p a] ++ unreplaced f [wB p b] []) []
    .ok (regW s (wA p a), srcB s f (wB p b))

/-- s of a one-source function with destination a. -/
def oneSrc (i : Instr) (s : State) (p : Pre) (a b : BitVec 4) : Res Nat := do
  names s [wA p a, wB p b] []
  let f ← forwarded i s (some (wB p b)) none
  reads s (unreplaced f [wB p b] []) []
  .ok (srcB s f (wB p b))

/-- s of a one-source function without destination. -/
def oneSrcNoDst (i : Instr) (s : State) (p : Pre) (b : BitVec 4) : Res Nat := do
  names s [wB p b] []
  let f ← forwarded i s (some (wB p b)) none
  reads s (unreplaced f [wB p b] []) []
  .ok (srcB s f (wB p b))

end Sys2Proof.Machine
end

