-- ==== Sys2Proof/Machine/Ops.lean ====
section
/-! DEFINITION. The shared operations: taking an exception (R219 to R222) and returning from one (R107), writing WP and FLG (R20,
R26), and how the checks and the effect of an instruction become a step (R9, R221). -/

namespace Sys2Proof.Machine

/-! ## Writes that are checked -/

/-- The check of a new WP (R20): the window must lie in the general local store, then alignment. -/
def checkWp (s : State) (v : Nat) : Res Unit := do
  let w := windowOf s
  need (v + 8 * w.1 ≤ 0x1F000 && (w.2 = 0 || v + 512 + 64 * w.2 ≤ 0x1F000)) cLSPROT v
  need (v % 64 = 0) cALIGN v

/-! ## Taking an exception -/

/-- Is another live context of the core in trap handling with WP = TWP (R29)? -/
def trapBusy (s : State) : Bool :=
  (List.range 11).any (fun h => h != s.core.cur && (ctxAt s h).live && (ctxAt s h).wp == s.core.twp)

/-- The state of a context that enters at `entry` with the trap workspace (R219). The control context's trap takes the core out of
its gang, or withdraws its arrival; a helper is no member (R231, R209; notes/assumptions/91.md). -/
def enterAt (entry code value : Nat) (s : State) : State :=
  let la := laOf (ctx s)
  let t := flushLongs s
  let x := ctx t
  let u := setCtx (fun y => { y with
    wp := t.core.twp, flg := flgReset, repst := 0, pc := BitVec.ofNat 64 entry, inTrap := true, outer := y.outer + b2n y.inTrap
    heldTrap := none, wait := .none, stage := 0, ops := [], acquired := false, longs := [] }) t
  let v := dropWaiters s.core.cur u
  setWs 0 [code, value, x.pc.toNat, withLa la x.flg, x.repst.toNat, x.wp.toNat] (if s.core.cur = 0 then leaveGang v else v)

/-- A double trap is an activation fault (R29, R226), in PAIR and TRIAD modes of every replica: each meets the same trap, and the primary's
decides (R321). -/
def doubleTrap (s : State) : State :=
  let h := s.core.cur
  if secondary s then block .leader s else everywhere (fun t => asCtx h t (activationFault 0x80)) s

/-- Take cause `code` with `value` in the module's handler (R219). While another
context of the core is in trap handling the trap is held, and enters when that one has returned (R29). -/
def takeTrap (code value : Nat) (s : State) : State :=
  if (ctx s).wp = s.core.twp then doubleTrap s
  else if trapBusy s then block .held (setCtx (fun x => { x with heldTrap := some (code, value) }) s)
  else enterAt s.core.tvec.toNat code value s

/-- RENNET enters at the converter with W[13] holding the version's GP (R219). One that finds another context in trap handling is
discarded, and the SOPEN issues again (R379). -/
def takeRennet (h conv gp : Nat) (s : State) : State :=
  if (ctx s).wp = s.core.twp then doubleTrap s
  else if trapBusy s then block .held s
  else setW 13 gp (enterAt conv cRENNET h s)

/-! ## Uncorrectable errors (R408, R316) -/

/-- Does a range meet the register window of a live context (R137)? -/
def meetsWindow (s : State) (lo n : Nat) : Bool :=
  let w := windowOf s
  s.core.ctxs.any (fun x => x.live && (meets lo n x.wp.toNat (8 * w.1) || meets lo n (x.wp.toNat + 512) (64 * w.2)))

/-- What the consumption of a poisoned granule comes to: a copy that is discarded, or the value of the UE trap. -/
def ueKind (a : Nat) (s : State) : Bool × Nat :=
  let g := a / 8
  match winAt s.core a with
  | some (_, w) =>
    let own := w.tagged.any (fun t => t.1 / 8 == g)
    match paOf s (asidOf s) (w.va + (a - w.base)) with
    | some pa => (own || !homeBad s.pkg pa, pa)
    | none => (own, 0xFF00000000000000 + a)
  | none => (meetsWindow s (8 * g) 8, 0xFF00000000000000 + a)

/-- The bad copy is discarded: its sector becomes invalid, its mark goes. -/
def discardBad (a : Nat) (s : State) : State :=
  updCore (fun c =>
    let d := { c with poison := c.poison.filter (· != a / 8) }
    match winAt c a with
    | some (i, w) => updWin i (fun w' => { w' with valid := w'.valid.filter (· != sectorOf w a) }) d
    | none => d) s

/-- A context consumes UE at a local store address: a replica fails its vote (R316); otherwise the segment is rolled back once for
a copy that can be discarded, and the module's handler is entered in every other case (R408). -/
def takeUe (a : Nat) (s : State) : State :=
  let k := ueKind a s
  let t := if k.1 then discardBad a s else s
  if redundant s then sendVote 4 id t
  else if k.1 && !(ctxAt s 0).ueAt.contains (a / 8) then
    rollback s.core.cur (setCtxAt 0 (fun x => { x with ueAt := a / 8 :: x.ueAt }) t)
  else takeTrap cUE k.2 t

/-- A context consumes UE at a physical address. A clean copy of its cluster's cache is discarded, and the segment rolled back once; at its
home, or in a dirty line, no copy can be discarded (R407, R408, R316). -/
def raiseUe (pa : Nat) (s : State) : State :=
  let cl := clusterOf s.core.id
  let clean := s.pkg.ccBad.contains (cl, pa / 8) && !homeBad s.pkg pa
  let t := if clean then updPkg (fun g => { g with ccBad := g.ccBad.filter (· != (cl, pa / 8)) }) s else s
  let key := 2 ^ 65 + pa / 8
  if redundant s then sendVote 4 id t
  else if clean && !(ctxAt s 0).ueAt.contains key then
    rollback s.core.cur (setCtxAt 0 (fun x => { x with ueAt := key :: x.ueAt }) t)
  else takeTrap cUE pa t

/-- The first held output of the segment that cannot be read. The second time that it stands in the way, the module's handler is
entered; it has no address of its own, and the value is that of the output-buffer shadow (R408; notes/assumptions/92.md). -/
def takeBadHeld (s : State) : State :=
  match (heldOf none s).findIdx? (fun e => e.bad && inSeg (if redundant s then some s.core.cur else none) e.ctx) with
  | none => s
  | some i =>
    let key := 2 ^ 64 + i
    let t := updAct (fun a => { a with held := removeAt i a.held }) s
    if (ctxAt s 0).ueAt.contains key then takeTrap cUE 0xFF0000000001FE00 t
    else rollback s.core.cur (setCtxAt 0 (fun x => { x with ueAt := key :: x.ueAt }) t)

/-! ## Asynchronous causes -/

/-- The pending cause with the lowest code. -/
def lowestCause : List Cause → Option Cause
  | [] => none
  | c :: cs => match lowestCause cs with | none => some c | some d => if d.code < c.code then some d else some c

/-- Remove the first cause equal to c. -/
def removeCause (c : Cause) : List Cause → List Cause
  | [] => []
  | d :: ds => if d = c then ds else d :: removeCause c ds

/-- The cause that replaces an instruction of the issuing context: the control context's, outside trap handling, before the
instruction has begun (R220, R221); in PAIR and TRIAD modes only MISMATCH is taken at an issue (R321). -/
def asyncDue (s : State) : Option Cause :=
  if s.core.cur ≠ 0 ∨ (ctx s).inTrap ∨ stageOf s ≠ 0 then none
  else match s.core.act with
    | some a => lowestCause (if a.redm = 0 then a.pending else a.pending.filter (fun c => c.due || c.code == cMISMATCH))
    | none => none

/-- The cause is taken with the instruction's address as old PC. A UE that the MXU has consumed in the local store is decided as one of the
context's own (R180, R408). -/
def takeAsync (c : Cause) (s : State) : State :=
  let t := updAct (fun a => { a with pending := removeCause c a.pending }) s
  if c.code = cUE ∧ 0xFF00000000000000 ≤ c.value then takeUe (c.value - 0xFF00000000000000) t
  else takeTrap c.code c.value t

/-- Is a wait the effect of an instruction that issues, its checks passed (R15, R221), and no stall before its issue? -/
def isWait (w : Wait) : Bool := match w with | .wpwait _ _ | .joinh _ | .slot | .svc _ | .leader => true | _ => false

/-- The issue is counted by every open window, once the instruction is done or waits in its middle (R30). -/
def counted (t : State) : State := if stageOf t = 0 && (ctx t).wait != .verdict then tick t else t

/-! ## STRAGGLER (R381) -/

/-- Is the open segment the control context's first (R225, R310)? -/
def firstSegment (s : State) : Bool :=
  match s.core.act with | some a => if a.redm = 0 then a.retained else (ctxAt s 0).firstSeg | none => false

/-- Every context returns to where a rollback of the open segment takes it (R250). -/
def rolledBack (s : State) : State :=
  let w := windowOf s
  let u := if redundant s then updCore (fun c => (List.range 11).foldl (fun c h => undoJournal h c) c) s else s
  updCore (fun c => (List.range 11).foldl (fun c h => restoreCtx w.1 w.2 h c) c) (discardSeg none u)

/-- STRAGGLER on one core: the segment rolls back; a first segment is dispatched again by the newest version, and a later one
ends the activation without END (R381). -/
def straggle (s : State) : State :=
  if firstSegment s then
    let t := if redundant s then updCore (fun c => (List.range 11).foldl (fun c h => undoJournal h c) c) s else s
    toPending (updAct (fun y => { y with redeliver := true }) (discardSeg none t))
  else stopAct 1 (rolledBack s)

/-- A replica as it stands at the primary's instruction: what no journal and no snapshot restores is the primary's, p, whose contexts were
`xs` (R382). -/
def asPrimary (xs : List Ctx) (w : Nat × Nat) (p c : Core) : Core :=
  { c with
    fpst := p.fpst, qstat := p.qstat, tvec := p.tvec, twp := p.twp, lut := p.lut
    ls := xs.foldl (fun m x => if x.live then
      writeBytes (writeBytes m x.wp.toNat (readBytes p.ls x.wp.toNat (8 * w.1))) (x.wp.toNat + 512) (readBytes p.ls (x.wp.toNat + 512) (64 * w.2))
      else m) c.ls }

/-- An issue of dead code, or SOPEN by it; the end of a later segment leaves an error record of its address. In PAIR and TRIAD
modes the primary decides, and every replica stops at its instruction: nothing of the open segment stays on any of them, and a verdict has
committed on all at once (R382). -/
def takeStraggler (a : Nat) (s : State) : State :=
  if secondary s then block .leader s
  else
    let t := everywhere straggle s
    let t := ((replicas s).filter (· != s.core.id)).foldl (fun u k =>
      setCore k (asPrimary s.core.ctxs (windowOf s) u.core (coreOf u k)) u) t
    if firstSegment s then t else logErr { inst := actInst s, core := s.core.id, cause := 10, detail := a } t

/-! ## Operands of an instruction that runs in parts -/

/-- Is the instruction of the issuing context still to be gone on with: in its middle, or waiting? -/
def unfinished (s : State) : Bool := stageOf s != 0 || (ctx s).wait != .none

/-- The operands stay with an instruction that is to be gone on with, also where a rollback returns to its middle (R10, R250). -/
def keepOps (l : List Nat) (t : State) : State :=
  setCtx (fun x => { x with ops := l, mid := x.mid.map (fun m => if m.own then { m with ops := l } else m) }) t

/-- The operands are read and checked at the issue; a later part of the instruction, and the end of a wait in its middle, use them as
that issue read them (R9, R10). -/
def inParts (s : State) (read : Res (List Nat)) (effect : List Nat → Res State) : Res State := do
  if stageOf s = 0 && (ctx s).ops.isEmpty then do
    let l ← read
    let t ← effect l
    .ok (if unfinished t then keepOps l t else t)
  else effect (ctx s).ops

/-! ## One issue -/

/-- How the checks and the effect of an instruction become a step: a trap leaves none of its assignments (R9); a stall leaves
the context at the instruction, which has not issued (R15); a pending asynchronous cause takes the place of an instruction whose
checks have passed (R221). An instruction that ends a pass which cannot count W[15] down leaves nothing either (R111). -/
def run (s : State) (r : Res State) : Host.Outcome State Fault Refusal :=
  match r with
  | .error (.trap code value) => .next (takeTrap code value s)
  | .error (.rennet h conv gp) => .next (takeRennet h conv gp s)
  | .error (.straggler a) => .next (takeStraggler a s)
  | .error (.ue a) => .next (takeUe a s)
  | .error (.ueCtr va) => .next (if redundant s then sendVote 4 id s else takeTrap cUE va s)
  | .error (.wait w) =>
    match asyncDue s with
    | some c => .next (if isWait w then takeAsync c s else block w s)
    | none => .next (block w s)
  | .error (.latched w l) =>
    match asyncDue s with
    | some c => .next (if isWait w then takeAsync c s else block w (keepOps l s))
    | none => .next (block w (keepOps l s))
  | .ok t =>
    match asyncDue s with
    | some c => .next (takeAsync c s)
    | none =>
      match (ctx t).wait, stageOf t with
      | .count a, _ => .next (takeUe a s)
      | .fill a, 0 => .next (block (.fill a) s)
      | _, _ => .next (counted t)

/-- R33: the instruction waits until every outstanding long result of its context is written, and then every open window counts
it, also when it takes a trap. -/
def runFlushed (s : State) (r : State → Res State) : Host.Outcome State Fault Refusal :=
  let t := flushLongs s
  match r t with
  | .error (.trap code value) => .next (takeTrap code value (if trapBusy t then t else tick t))
  | x => run t x

/-! ## Commit points and releases -/

/-- What keeps the state after a commit point from being known: the pass that ends there waits for W[15] (R111). -/
def nxtStall (nxt : State → State) (s : State) : Option Wait :=
  match (ctx (nxt s)).wait with | .fill a => some (.fill a) | .count a => some (.count a) | _ => none

/-- A commit point (R248) and what follows it. In PAIR and TRIAD modes part n sends the vote and part n + 1 follows the verdict
(R311). `nxt` gives the snapshot of the issuing context. Held outputs that cannot be read are consumed there, and are a failed vote in
PAIR and TRIAD modes (R408, R316). -/
def withCommit (n : Nat) (nxt : State → State) (s : State) (cont : State → State) : State :=
  if stageOf s = n then
    (match nxtStall nxt s with
     | some w => block w s
     | none =>
       if redundant s then sendVote (if badHeld s then 4 else 0) nxt s
       else if badHeld s then takeBadHeld s
       else cont (commitSeg nxt s))
  else cont s


/-- The state after the instruction, which every open window has counted: what a commit point's snapshot records (R308). -/
def after (p : Pre) (s : State) : State := tick (retire p s)

/-- Does the issuing context have traffic to other packages that is not accepted (R217, R265)? -/
def awayOpen (s : State) : Bool :=
  let k := s.core.id
  let h := s.core.cur
  s.pkg.msgs.any (fun f => f.src == k && f.ctx == h && f.pkg != s.pkg.pkgId.toNat) ||
    s.core.chans.any (fun c => c.q.any (fun e => e.ctx == h && (e.committed || e.begun) && bit e.cmd.toNat 11))

/-- The end of a release: at sys scope it also waits for remote traffic (R217). -/
def awaitRemote (n scope : Nat) (fin : State → State) (s : State) : State :=
  if scope = 4 && awayOpen s then holdMid (block .remote (setStage (n + 3) s)) else fin s

/-- A commit point, the release at a scope (`ordered`: of a rel store), its acceptance at the homes, and then `fin` (R217, R254). Parts n and
n + 1 are the commit point, part n + 2 follows the acceptance, part n + 3 the remote traffic. -/
def released (ordered : Bool) (n : Nat) (nxt : State → State) (scope : Nat) (fin : State → State) (s : State) : State :=
  if stageOf s ≤ n + 1 then
    withCommit n nxt s (fun t =>
      let u := releaseAt ordered scope t
      if backsOpen u then holdMid (block .accept (setStage (n + 2) u)) else awaitRemote n scope fin u)
  else if stageOf s = n + 2 then (if backsOpen s then block .accept s else awaitRemote n scope fin s)
  else if stageOf s = n + 3 then awaitRemote n scope fin s
  else fin s

/-! ## Stopping issue (R333, R415) -/

/-- Does a context wait in CWAIT, WPWAIT or at an unmatched CPL, which issue again once the wait is cancelled (R197, R231)? So does a
read that waits for the primary's value: its checks have passed (R221, R301). -/
def cancellable (x : Ctx) : Bool := match x.wait with | .cwait _ _ | .wpwait _ _ | .cpl => true | .leader => x.stage == 0 | _ => false

/-- Every such wait of the focal core is cancelled. -/
def cancelWaits (s : State) : State :=
  updCore (fun c => { c with ctxs := c.ctxs.map (fun x => if cancellable x then { x with wait := .none } else x) })
    (updPkg (fun g => { g with waiters := g.waiters.filter (fun w => w.core != s.core.id) }) s)

/-- Long results of every context are written; LA still shows what remained (R36). -/
def flushAll (s : State) : State := (List.range 11).foldl (fun t h => flushLongsAt h t) s

/-- The core stops at an issue boundary: long results written, waits cancelled, the gang left (R333, R415). -/
def quiesce (s : State) : State := leaveGang (cancelWaits (flushAll s))

/-- Resumption reopens no window (R36). -/
def closeAll (c : Core) : Core := { c with ctxs := c.ctxs.map (fun x => { x with longs := [] }) }

/-- Does a context of the core stand between two parts of a clear, whose stages begin at 16? Pre-emption and debug halts wait for its
end (R139). -/
def clearing (c : Core) : Bool := c.ctxs.any (fun x => x.live && 16 ≤ x.stage)

/-- A debug halt of the focal core (R415). -/
def haltCore (s : State) : State := updCore (fun c => { c with halted := true, stepCtx := none }) (quiesce s)

/-! ## Returning from an exception -/

/-- RETT (R107) on a state without outstanding long results. Contexts held at a trap issue again. The spec checks no alignment of the
saved PC: with bit 0 of W[2] set the context fetches its words from the odd address (notes/assumptions/73.md). A handler that it returns
into is in trap handling until its own RETT (R219, R221). A window that was opened in the handler and is still open is closed
(notes/assumptions/14.md). -/
def rett (i : Instr) (s : State) : Res State := do
  need8 ((ctx s).wp = s.core.twp) i
  names s [2, 3, 4, 5] []
  reads s [2, 3, 4, 5] []
  let p := regW s 2
  let f := regW s 3
  let r := regW s 4
  let w := regW s 5
  need8 (flgLegal f) i
  checkWp s w
  let t := setCtx (fun x => { x with
    flg := flgWritten f, repst := BitVec.ofNat 64 r &&& 0xFFFFFFFF7FFFFFFE, wp := BitVec.ofNat 64 w, pc := BitVec.ofNat 64 p,
    inTrap := x.outer != 0, outer := x.outer - 1, wait := .none, stage := 0, longs := [] }) s
  .ok (updCore (fun c => { c with ctxs := c.ctxs.map (fun x => if x.wait = .held then { x with wait := .none } else x) }) t)

end Sys2Proof.Machine
end

