-- ==== Sys2Proof/Machine/Alu.lean ====
section
/-! DEFINITION. ALU, ALUI, MOVI and LDAP (R112 to R117) and the XFER data functions (R126). -/

namespace Sys2Proof.Machine

/-- A two-source function with a result (R100): read, compute, write, go on. -/
def binary (i : Instr) (p : Pre) (a b : BitVec 4) (f : Nat → Nat → Nat) (s : State) : Host.Outcome State Fault Refusal :=
  run s (do
    let x ← twoSrc i s p a b
    .ok (retire p (setW (wA p a) (f x.1 x.2) s)))

/-- A two-source function that writes flags only (R113, R114). -/
def binaryFlags (i : Instr) (p : Pre) (a b : BitVec 4) (f : Nat → Nat → BitVec 5) (s : State) :
    Host.Outcome State Fault Refusal :=
  run s (do
    let x ← twoSrcNoDst i s p a b
    .ok (retire p (setFlags (f x.1 x.2) s)))

/-- A one-source function with a result (R100). -/
def unary (i : Instr) (p : Pre) (a b : BitVec 4) (f : Nat → Nat) (s : State) : Host.Outcome State Fault Refusal :=
  run s (do
    let x ← oneSrc i s p a b
    .ok (retire p (setW (wA p a) (f x) s)))

/-- W[a] computed with an immediate (R115). -/
def immOp (p : Pre) (a : BitVec 4) (f : Nat → Nat) (s : State) : Host.Outcome State Fault Refusal :=
  run s (do
    names s [wA p a] []
    reads s [wA p a] []
    .ok (retire p (setW (wA p a) (f (regW s (wA p a))) s)))

/-- W[a] set to a value that reads no register (R115, R116). -/
def immSet (p : Pre) (a : BitVec 4) (v : Nat) (s : State) : Host.Outcome State Fault Refusal :=
  run s (do
    names s [wA p a] []
    .ok (retire p (setW (wA p a) v s)))

/-- x shifted left (R112). -/
def shl64 (x y : Nat) : Nat := if 64 ≤ y then 0 else x <<< y
/-- x shifted right (R112). -/
def shr64 (x y : Nat) : Nat := if 64 ≤ y then 0 else x >>> y
/-- x shifted right with its sign (R112). -/
def sar64 (x y : Nat) : Nat := narrow 64 (sv x 64 / (2 ^ min y 64 : Nat))
/-- The smaller and the larger of two signed values, as 64 bits (R112). -/
def smin64 (x y : Nat) : Nat := if sv x 64 ≤ sv y 64 then x else y
def smax64 (x y : Nat) : Nat := if sv x 64 ≤ sv y 64 then y else x
/-- Leading zero bits of a 64-bit value (R126). -/
def clz64 (x : Nat) : Nat := ((List.range 64).find? (fun n => bit x (63 - n))).getD 64
/-- One bits of a 64-bit value (R126). -/
def popc64 (x : Nat) : Nat := ((List.range 64).filter (fun n => bit x n)).length
/-- The eight bytes in reverse order (R126). -/
def bswap64 (x : Nat) : Nat := numLE (bytesLE x 8).reverse

/-- `alu.add` (R112). -/
def execAluAdd (p : Pre) (a b : BitVec 4) (s : State) : Host.Outcome State Fault Refusal :=
  binary (.aluAdd p a b) p a b (fun x y => x + y) s

/-- `alu.sub` (R112). -/
def execAluSub (p : Pre) (a b : BitVec 4) (s : State) : Host.Outcome State Fault Refusal :=
  binary (.aluSub p a b) p a b (fun x y => x + (2 ^ 64 - y)) s

/-- `alu.and` (R112). -/
def execAluAnd (p : Pre) (a b : BitVec 4) (s : State) : Host.Outcome State Fault Refusal :=
  binary (.aluAnd p a b) p a b (fun x y => x &&& y) s

/-- `alu.or` (R112). -/
def execAluOr (p : Pre) (a b : BitVec 4) (s : State) : Host.Outcome State Fault Refusal :=
  binary (.aluOr p a b) p a b (fun x y => x ||| y) s

/-- `alu.xor` (R112). -/
def execAluXor (p : Pre) (a b : BitVec 4) (s : State) : Host.Outcome State Fault Refusal :=
  binary (.aluXor p a b) p a b (fun x y => x ^^^ y) s

/-- `alu.shl` (R112). -/
def execAluShl (p : Pre) (a b : BitVec 4) (s : State) : Host.Outcome State Fault Refusal :=
  binary (.aluShl p a b) p a b (fun x y => shl64 x y) s

/-- `alu.shr` (R112). -/
def execAluShr (p : Pre) (a b : BitVec 4) (s : State) : Host.Outcome State Fault Refusal :=
  binary (.aluShr p a b) p a b (fun x y => shr64 x y) s

/-- `alu.sar` (R112). -/
def execAluSar (p : Pre) (a b : BitVec 4) (s : State) : Host.Outcome State Fault Refusal :=
  binary (.aluSar p a b) p a b (fun x y => sar64 x y) s

/-- `alu.mul` (R112). -/
def execAluMul (p : Pre) (a b : BitVec 4) (s : State) : Host.Outcome State Fault Refusal :=
  binary (.aluMul p a b) p a b (fun x y => x * y) s

/-- `alu.mulh` (R112). -/
def execAluMulh (p : Pre) (a b : BitVec 4) (s : State) : Host.Outcome State Fault Refusal :=
  binary (.aluMulh p a b) p a b (fun x y => narrow 64 (sv x 64 * sv y 64 / (2 ^ 64 : Nat))) s

/-- `alu.mulhn` (R112). -/
def execAluMulhn (p : Pre) (a b : BitVec 4) (s : State) : Host.Outcome State Fault Refusal :=
  binary (.aluMulhn p a b) p a b (fun x y => x * y / 2 ^ 64) s

/-- `alu.min` (R112). -/
def execAluMin (p : Pre) (a b : BitVec 4) (s : State) : Host.Outcome State Fault Refusal :=
  binary (.aluMin p a b) p a b (fun x y => smin64 x y) s

/-- `alu.max` (R112). -/
def execAluMax (p : Pre) (a b : BitVec 4) (s : State) : Host.Outcome State Fault Refusal :=
  binary (.aluMax p a b) p a b (fun x y => smax64 x y) s

/-- `alu.minn` (R112). -/
def execAluMinn (p : Pre) (a b : BitVec 4) (s : State) : Host.Outcome State Fault Refusal :=
  binary (.aluMinn p a b) p a b (fun x y => min x y) s

/-- `alu.maxn` (R112). -/
def execAluMaxn (p : Pre) (a b : BitVec 4) (s : State) : Host.Outcome State Fault Refusal :=
  binary (.aluMaxn p a b) p a b (fun x y => max x y) s

/-- `alu.cmp` (R113, R114). -/
def execAluCmp (p : Pre) (a b : BitVec 4) (s : State) : Host.Outcome State Fault Refusal :=
  binaryFlags (.aluCmp p a b) p a b cmpFlags s

/-- `alui.addi` (R115). -/
def execAluiAddi (p : Pre) (a i : BitVec 4) (s : State) : Host.Outcome State Fault Refusal :=
  immOp p a (fun x => x + immS64 p 4 i.toNat) s

/-- `alui.andi` (R115). -/
def execAluiAndi (p : Pre) (a i : BitVec 4) (s : State) : Host.Outcome State Fault Refusal :=
  immOp p a (fun x => x &&& (immBits p 4 i.toNat % 2 ^ 64)) s

/-- `alui.ori` (R115). -/
def execAluiOri (p : Pre) (a i : BitVec 4) (s : State) : Host.Outcome State Fault Refusal :=
  immOp p a (fun x => x ||| (immBits p 4 i.toNat % 2 ^ 64)) s

/-- `alui.xori` (R115). -/
def execAluiXori (p : Pre) (a i : BitVec 4) (s : State) : Host.Outcome State Fault Refusal :=
  immOp p a (fun x => x ^^^ (immBits p 4 i.toNat % 2 ^ 64)) s

/-- `alui.shli` (R115). -/
def execAluiShli (p : Pre) (a i : BitVec 4) (s : State) : Host.Outcome State Fault Refusal :=
  immOp p a (fun x => shl64 x (immS64 p 4 i.toNat)) s

/-- `alui.shri` (R115). -/
def execAluiShri (p : Pre) (a i : BitVec 4) (s : State) : Host.Outcome State Fault Refusal :=
  immOp p a (fun x => shr64 x (immS64 p 4 i.toNat)) s

/-- `alui.sari` (R115). -/
def execAluiSari (p : Pre) (a i : BitVec 4) (s : State) : Host.Outcome State Fault Refusal :=
  immOp p a (fun x => sar64 x (immS64 p 4 i.toNat)) s

/-- `alui.muli` (R115). -/
def execAluiMuli (p : Pre) (a i : BitVec 4) (s : State) : Host.Outcome State Fault Refusal :=
  immOp p a (fun x => x * immS64 p 4 i.toNat) s

/-- `alui.mini` (R115). -/
def execAluiMini (p : Pre) (a i : BitVec 4) (s : State) : Host.Outcome State Fault Refusal :=
  immOp p a (fun x => smin64 x (immS64 p 4 i.toNat)) s

/-- `alui.maxi` (R115). -/
def execAluiMaxi (p : Pre) (a i : BitVec 4) (s : State) : Host.Outcome State Fault Refusal :=
  immOp p a (fun x => smax64 x (immS64 p 4 i.toNat)) s

/-- `alui.cmpi` (R113). -/
def execAluiCmpi (p : Pre) (a i : BitVec 4) (s : State) : Host.Outcome State Fault Refusal :=
  run s (do
    names s [wA p a] []
    reads s [wA p a] []
    .ok (retire p (setFlags (cmpFlags (regW s (wA p a)) (immS64 p 4 i.toNat)) s)))

/-- `alui.lda` (R115): x is not read. -/
def execAluiLda (p : Pre) (a i : BitVec 4) (s : State) : Host.Outcome State Fault Refusal :=
  immSet p a (start s + immS64 p 4 i.toNat) s

/-- `movi` (R116). -/
def execMovi (p : Pre) (a : BitVec 4) (i : BitVec 8) (s : State) : Host.Outcome State Fault Refusal :=
  immSet p a (immS64 p 8 i.toNat) s

/-- `ldap` (R117). -/
def execLdap (p : Pre) (a : BitVec 4) (i : BitVec 8) (s : State) : Host.Outcome State Fault Refusal :=
  immSet p a (narrow 64 ((start s / 4096 * 4096 : Nat) + immS p 8 i.toNat * 4096)) s

/-- `xfer.mov` (R126). -/
def execXferMov (p : Pre) (a b : BitVec 4) (s : State) : Host.Outcome State Fault Refusal :=
  unary (.xferMov p a b) p a b (fun x => x) s

/-- `xfer.clz` (R126). -/
def execXferClz (p : Pre) (a b : BitVec 4) (s : State) : Host.Outcome State Fault Refusal :=
  unary (.xferClz p a b) p a b clz64 s

/-- `xfer.popc` (R126). -/
def execXferPopc (p : Pre) (a b : BitVec 4) (s : State) : Host.Outcome State Fault Refusal :=
  unary (.xferPopc p a b) p a b popc64 s

/-- `xfer.bswap` (R126). -/
def execXferBswap (p : Pre) (a b : BitVec 4) (s : State) : Host.Outcome State Fault Refusal :=
  unary (.xferBswap p a b) p a b bswap64 s

/-- `xfer.tst` (R113, R126). -/
def execXferTst (p : Pre) (a b : BitVec 4) (s : State) : Host.Outcome State Fault Refusal :=
  binaryFlags (.xferTst p a b) p a b tstFlags s

end Sys2Proof.Machine
end

