-- ==== Sys2Proof/WellFormed.lean ====
section
/-! DEFINITION. Which instructions are well formed: those that some legal chain of words encodes (R79 to R91, R418), and the
events whose numbers name parts the package has (R1, R17, R27, R200). The checks themselves stand in Machine/Forms.lean. -/

namespace Sys2Proof

open Sys2Proof.Machine

/-- The well-formed instructions. -/
def wellFormed (i : Instr) : Bool := if isBase i then chainOk i else eventOk i

end Sys2Proof
end

