-- ==== Sys2Proof/Decode.lean ====
section
/-! DEFINITION. Decoding: from the words of a chain, in execution order, to an instruction or to the REASON, INDEX and WORD of
an illegal instruction (R74 to R93, R418); and the encoder. Decoding is total: any list of words gives an instruction with
its number of words, a rejection, or `short` when the list ends before the chain does. -/

namespace Sys2Proof

open Sys2Proof.Machine

/-- What decoding answers. -/
inductive Decoded
  | ok (i : Instr) (words : Nat)
  | ill (e : Ill)
  | short
  deriving DecidableEq, Repr

/-- A word with major opcode 0xE or 0xF is a prefix word (R74). -/
def isPrefix (w : Half) : Bool := 14 ≤ (w.extractLsb' 12 4).toNat

/-- The prefix words at the head of a list and what follows them. -/
def splitChain : List Half → List Half × List Half
  | [] => ([], [])
  | w :: ws => if isPrefix w then let r := splitChain ws; (w :: r.1, r.2) else ([], w :: ws)

/-- The kinds of prefix word (R81): 0 PFX.R, 1 PFX.O, 2 PFX.F, 3 PFX.Q, 4 PFX.I. -/
def kindOf (w : Half) : Nat :=
  if (w.extractLsb' 12 4).toNat = 15 then 4 else (w.extractLsb' 10 2).toNat

/-- The fields of a PFX.R word (R81). -/
def regOf (w : Half) : RegExt := ⟨w.extractLsb' 8 2, w.extractLsb' 6 2, w.extractLsb' 0 6⟩

/-- The fields of a PFX.F word (R81). -/
def fwdOf (w : Half) : Fwd := ⟨w.getLsbD 9, w.extractLsb' 4 4⟩

/-- The fields of a PFX.Q word (R81). -/
def qualOf (w : Half) : Qual := ⟨w.extractLsb' 7 3, w.extractLsb' 5 2, w.getLsbD 4, w.extractLsb' 0 4⟩

/-- The prefixes of a chain whose kinds are not repeated. Where a kind is repeated the first word of it counts
(notes/assumptions/79.md). -/
def gather : List Half → Pre
  | [] => {}
  | w :: ws =>
    let p := gather ws
    match kindOf w with
    | 0 => { p with reg := some (regOf w) }
    | 1 => { p with page := some (w.extractLsb' 0 10) }
    | 2 => { p with fwd := some (fwdOf w) }
    | 3 => { p with qual := some (qualOf w) }
    | _ => { p with imms := w.extractLsb' 0 12 :: p.imms }

/-- The base word with the fields cleared that its function does not select by: enough to judge the prefixes. -/
def acceptsWord (maj pg : Nat) (isRep : Bool) (k : Nat) : Bool :=
  match k with
  | 0 => takesReg maj
  | 1 => takesPage maj
  | 2 => takesFwd maj
  | 3 => takesQual maj pg
  | _ => (maj == 0 && isRep) || maj == 2 || maj == 3 || maj == 5 || maj == 6 || maj == 8 || maj == 9 ||
    (maj == 10 && pg == 3)

/-- The most PFX.I words before a base word of this major (R84). -/
def immMax (maj : Nat) : Nat := if maj = 0 then 3 else if maj = 10 then 1 else 4

/-- The reasons for which prefix word `w` at position `i` is faulty whatever the base word: fifth word, repeated kind, illegal
fields of PFX.F (R82, R87, R418). -/
def prefixFaults (i : Nat) (before : List Half) (hasReg : Bool) (w : Half) : List Nat :=
  (if 4 ≤ i then [3] else []) ++
  (if kindOf w ≠ 4 ∧ before.any (fun x => kindOf x == kindOf w) then [4] else []) ++
  (if kindOf w = 2 ∧ (w.getLsbD 8 ∨ w.extractLsb' 0 4 ≠ 0) then [2] else []) ++
  (if kindOf w = 2 ∧ ((fwdOf w).k = 0 ∨ ((fwdOf w).onC ∧ !hasReg)) then [6] else [])

/-- The fields of a PFX.R that a whole major opcode asks to be 0, whatever the function: b-hi and c of ALUI, MOVI and LDAP, c of LD and
ST (R418). -/
def majRegOk (maj : Nat) (x : RegExt) : Bool :=
  match maj with
  | 2 | 3 | 6 => x.bHi == 0 && x.c == 0
  | 8 | 9 => x.c == 0
  | _ => true

/-- The reasons for which prefix word `w` is faulty before this base word (R84, R88, R89, R91, R418). `nI` counts the PFX.I
words up to and including `w`; `f` is the operand form, none when the function is unassigned: what only a function's entry could judge, an
element type or a field of PFX.R, is then no fault (notes/assumptions/97.md). -/
def acceptFaults (maj pg : Nat) (isRep : Bool) (f : Option Form) (nI : Nat) (w : Half) : List Nat :=
  if acceptsWord maj pg isRep (kindOf w) then
    match kindOf w with
    | 0 =>
      match f with
      | some f => if f.regOk (regOf w) then [] else [2]
      | none => if majRegOk maj (regOf w) then [] else [2]
    | 1 => []
    | 2 => if (fwdOf w).onC ∧ (maj = 8 ∨ maj = 9) then [6] else []
    | 3 =>
      if maj = 8 ∨ maj = 9 then (if memQualOk maj pg (qualOf w) then [] else [6])
      else
        (if typeQualZero (qualOf w) then [] else [2]) ++
        (match f with
         | some f => if f.types.testBit (qualOf w).et.toNat then [] else [6]
         | none => [])
    | _ => if immMax maj < nI then [7] else []
  else [5]

/-- The lowest of some reasons. -/
def lowest : List Nat → Option Nat
  | [] => none
  | x :: xs => match lowest xs with | none => some x | some y => some (min x y)

/-- The first faulty prefix word in address order, with its lowest REASON (R93). -/
def firstFault (maj pg : Nat) (known isRep hasReg : Bool) (f : Option Form) :
    Nat → Nat → List Half → List Half → Option Ill
  | _, _, _, [] => none
  | i, nI, before, w :: ws =>
    let nI' := nI + b2n (kindOf w == 4)
    let rs := prefixFaults i before hasReg w ++ (if known then acceptFaults maj pg isRep f nI' w else [])
    match lowest rs with
    | some r => some ⟨BitVec.ofNat 4 r, BitVec.ofNat 3 i, w⟩
    | none => firstFault maj pg known isRep hasReg f (i + 1) nI' (before ++ [w]) ws

/-- Is a must-be-zero field of the base word set (R79, R80, R91, R109, R196)? -/
def baseFault (i : Instr) (w : Half) : Bool :=
  let f := formOf i
  let r := (preOf i).reg.isSome
  !((if r then f.aR else f.a).fieldOk (w.extractLsb' 8 4) &&
    (if r then f.bR else f.b).fieldOk (w.extractLsb' 4 4) &&
    (match i with
     | .sysNop | .sysEnd | .sysEndP | .sysAbort | .sysRett | .sysIdle | .sysSplit | .sysFenceIbar
     | .longCwait _ _ _ | .longWpwait _ _ _ => w.extractLsb' 0 4 == 0
     | .sysVtype t y => t == 15 || y == 0
     | _ => true))

/-- Decode the chain at the head of a list of words. Six words are looked at: a chain of six or more prefix words shows no base word
(notes/assumptions/78.md); the page is that of the first four words, a PFX.R counts for PFX.F among the first five
(notes/assumptions/79.md). -/
def decode (ws : List Half) : Decoded :=
  let (ps, rest) := splitChain (ws.take 6)
  let five := ps.take 5
  let p := gather (five.take 4)
  let hasReg := five.any (fun w => kindOf w == 0)
  match rest with
  | [] =>
    match firstFault 0 0 false false hasReg none 0 0 [] five with
    | some e => .ill e
    | none => .short
  | w :: _ =>
    let maj := (w.extractLsb' 12 4).toNat
    let pg := pageNum p
    let isRep := maj == 0 && (w.extractLsb' 8 4).toNat == 3
    let sel := select p w
    match firstFault maj pg true isRep hasReg (sel.map formOf) 0 0 [] five with
    | some e => .ill e
    | none =>
      match sel with
      | none => .ill ⟨1, BitVec.ofNat 3 ps.length, w⟩
      | some i => if baseFault i w then .ill ⟨2, BitVec.ofNat 3 ps.length, w⟩ else .ok i (ps.length + 1)

/-- The words of PFX.R, PFX.O, PFX.F and PFX.Q (R81). -/
def regWord (x : RegExt) : Half := BitVec.ofNat 16 (0xE000 + x.aHi.toNat * 256 + x.bHi.toNat * 64 + x.c.toNat)
def pageWord (n : BitVec 10) : Half := BitVec.ofNat 16 (0xE400 + n.toNat)
def fwdWord (f : Fwd) : Half := BitVec.ofNat 16 (0xE800 + b2n f.onC * 512 + f.k.toNat * 16)
def qualWord (q : Qual) : Half :=
  BitVec.ofNat 16 (0xEC00 + q.scope.toNat * 128 + q.order.toNat * 32 + b2n q.nt * 16 + q.et.toNat)
def immWord (x : BitVec 12) : Half := BitVec.ofNat 16 (0xF000 + x.toNat)

/-- The prefix words in the order `klas` emits them (R97). -/
def prefixWords (p : Pre) : List Half :=
  p.imms.map immWord ++ (p.reg.map regWord).toList ++ (p.page.map pageWord).toList ++
    (p.fwd.map fwdWord).toList ++ (p.qual.map qualWord).toList

/-- The words of a base function, in execution order. The rows that are no base function have no words. -/
def encode (i : Instr) : List Half :=
  if isBase i then prefixWords (preOf i) ++ [baseWord i] else []

/-- The 16-bit groups of a number, the most significant first: the table writes a prefix above its base word. -/
def halvesOf : Nat → Nat → List Half
  | 0, _ => []
  | n + 1, w => BitVec.ofNat 16 (w >>> (16 * n)) :: halvesOf n w

/-- The bytes of a list of words as they stand in memory, each word little-endian (R2, R74). -/
def wordBytes : List Half → List Byte
  | [] => []
  | w :: ws => w.extractLsb' 0 8 :: w.extractLsb' 8 8 :: wordBytes ws

/-- The words of a list of bytes, each word little-endian (R2, R74). -/
def bytesWords : List Byte → List Half
  | x :: y :: rest => (y ++ x) :: bytesWords rest
  | _ => []

/-- What the decoder reads from a row of the opcode table: the words as the table numbers them, the first executed word in
the highest 16 bits, laid out as bytes and decoded. -/
def decodeTableWord (nbits w : Nat) : Option Instr :=
  match decode (bytesWords (wordBytes (halvesOf ((nbits + 15) / 16) w ++ [0, 0, 0, 0]))) with
  | .ok i _ => some i
  | .ill _ | .short => none

end Sys2Proof
end

