-- ==== Sys2Proof/Machine/Fetch.lean ====
section
/-! DEFINITION. Instruction fetch (R76, R129, R218, R367, R368): words come from global memory through the cluster cache, or from
words that the core or the context fetched before and that no invalidation has reached. -/

namespace Sys2Proof.Machine

/-- An address a context may fetch from: translated to local memory and executable. -/
def fetchable (s : State) (asid va : Nat) : Bool :=
  match findPage s asid va with | some p => p.exec && p.remote.isNone | none => false

/-- The word at an address as the cluster cache holds it (R367). -/
def freshWord (s : State) (asid va : Nat) : Half :=
  match clusterRead s (clusterOf s.core.id) asid va 2 with
  | some bs => BitVec.ofNat 16 (numLE bs)
  | none => 0

/-- An older copy of the word that the core or the issuing context still holds. -/
def heldWord (s : State) (asid va : Nat) : Option Half :=
  match s.core.icache.find? (fun e => e.1 == asid && e.2.1 == va) with
  | some e => some e.2.2
  | none => look va (ctx s).fetched

/-- The word that fetch finds: where an older copy differs, either of them (R7, R368). An instruction in its middle goes on as it was
fetched. -/
def fetchWord (s : State) (asid va : Nat) : Option Half :=
  match if stageOf s = 0 then none else look va (ctx s).fetched with
  | some w => some w
  | none =>
    if fetchable s asid va then
      let w := freshWord s asid va
      match heldWord s asid va with
      | none => some w
      | some o => some (if o = w || Config.takesNew s.freeCtr va then w else o)
    else none

/-- The words of the chain at an address, at most n: they end with the first base word. The address of a word that cannot be
fetched comes with them. -/
def fetchChain (s : State) (asid va : Nat) : Nat → List Half × Option Nat
  | 0 => ([], none)
  | n + 1 =>
    match fetchWord s asid va with
    | none => ([], some va)
    | some w => if isPrefix w then let r := fetchChain s asid (va + 2) n; (w :: r.1, r.2) else ([w], none)

/-- The address of a poisoned granule among n words that fetch reads from the cluster cache (R407): a word that the core holds is not
read again. -/
def chainPoison (s : State) (asid va n : Nat) : Option Nat :=
  (List.range n).findSome? (fun j => if (heldWord s asid (va + 2 * j)).isSome then none else granulePoison s asid (va + 2 * j))

/-- The fetched words stay with the context. -/
def holdWords (va : Nat) : List Half → State → State
  | [], s => s
  | w :: ws, s => holdWords (va + 2) ws (setCtx (fun x => { x with fetched := put va w x.fetched }) s)

/-- Those that the fetch read anew stay in the core's instruction cache: an older copy that only a context holds does not enter it
(R367). -/
def cacheWords (asid va : Nat) : List Half → State → State
  | [], s => s
  | w :: ws, s =>
    let fresh := freshWord s asid va == w
    cacheWords asid (va + 2) ws
      (updCore (fun c => { c with
        icache := if !fresh || c.icache.any (fun e => e.1 == asid && e.2.1 == va && e.2.2 == w) then c.icache
          else (c.icache.filter (fun e => !(e.1 == asid && e.2.1 == va))) ++ [(asid, va, w)] }) s)

/-- The words that a core has fetched. -/
def keepWords (asid va : Nat) (ws : List Half) (s : State) : State := holdWords va ws (cacheWords asid va ws s)

/-- The address after n chains from an address (R77, R110); the address that cannot be fetched otherwise. -/
def skipChains (s : State) (asid : Nat) : Nat → Nat → Except Nat Nat
  | 0, va => .ok va
  | n + 1, va =>
    match fetchChain s asid va 6 with
    | (_, some f) => .error f
    | (ws, none) => skipChains s asid n (va + 2 * ws.length)

/-! ## Versions whose code runs (R371, R375, R381) -/

/-- The version of the running instance whose text holds an address. -/
def versionAt (s : State) (va : Nat) : Option Version :=
  match look (actInst s) s.pkg.insts with
  | some x => x.versions.find? (fun v => v.textLo ≤ va && va < v.textHi)
  | none => none

/-- A resident version of the running instance by tag. -/
def versionOf (s : State) (tag : Nat) : Option Version :=
  match look (actInst s) s.pkg.insts with
  | some x => x.versions.find? (fun v => v.tag == tag)
  | none => none

/-- What the focal core holds of the running instance (R371). -/
def coreInst (s : State) : CoreInst := (look (actInst s) s.core.insts).getD {}

/-- The newest resident version on the core. -/
def newestVersion (s : State) : Option Version :=
  match (coreInst s).newest with | some t => versionOf s t | none => none

/-- Does the code at an address belong to a version that is dead on the core (R381)? -/
def deadCode (s : State) (va : Nat) : Bool :=
  match versionAt s va with | some v => (coreInst s).dead.contains v.tag | none => false

end Sys2Proof.Machine
end

