-- ==== Sys2Proof/Machine/Branch.lean ====
section
/-! DEFINITION. Branches (R124, R125), jumps and calls (R127, R213) and the bellows (R110). -/

namespace Sys2Proof.Machine

/-- The target of a branch (R125). -/
def brcTarget (p : Pre) (d : BitVec 8) (s : State) : Nat := narrow 64 ((start s : Nat) + 2 * immS p 8 d.toNat)

/-- A conditional branch: taken, it ends a replay (R40); not taken, the next instruction follows. -/
def brc (cond : Nat) (p : Pre) (d : BitVec 8) (s : State) : Host.Outcome State Fault Refusal :=
  run s (.ok (if condHolds (flg s) cond then jump (brcTarget p d s) s else retire p s))

/-- `brc.b` (R124, R125). -/
def execBrcB (p : Pre) (d : BitVec 8) (s : State) : Host.Outcome State Fault Refusal := brc 0 p d s

/-- `brc.eq` (R124, R125). -/
def execBrcEq (p : Pre) (d : BitVec 8) (s : State) : Host.Outcome State Fault Refusal := brc 1 p d s

/-- `brc.ne` (R124, R125). -/
def execBrcNe (p : Pre) (d : BitVec 8) (s : State) : Host.Outcome State Fault Refusal := brc 2 p d s

/-- `brc.lt` (R124, R125). -/
def execBrcLt (p : Pre) (d : BitVec 8) (s : State) : Host.Outcome State Fault Refusal := brc 3 p d s

/-- `brc.ge` (R124, R125). -/
def execBrcGe (p : Pre) (d : BitVec 8) (s : State) : Host.Outcome State Fault Refusal := brc 4 p d s

/-- `brc.gt` (R124, R125). -/
def execBrcGt (p : Pre) (d : BitVec 8) (s : State) : Host.Outcome State Fault Refusal := brc 5 p d s

/-- `brc.le` (R124, R125). -/
def execBrcLe (p : Pre) (d : BitVec 8) (s : State) : Host.Outcome State Fault Refusal := brc 6 p d s

/-- `brc.lo` (R124, R125). -/
def execBrcLo (p : Pre) (d : BitVec 8) (s : State) : Host.Outcome State Fault Refusal := brc 7 p d s

/-- `brc.hs` (R124, R125). -/
def execBrcHs (p : Pre) (d : BitVec 8) (s : State) : Host.Outcome State Fault Refusal := brc 8 p d s

/-- `brc.hi` (R124, R125). -/
def execBrcHi (p : Pre) (d : BitVec 8) (s : State) : Host.Outcome State Fault Refusal := brc 9 p d s

/-- `brc.ls` (R124, R125). -/
def execBrcLs (p : Pre) (d : BitVec 8) (s : State) : Host.Outcome State Fault Refusal := brc 10 p d s

/-- `brc.un` (R124, R125). -/
def execBrcUn (p : Pre) (d : BitVec 8) (s : State) : Host.Outcome State Fault Refusal := brc 11 p d s

/-- `brc.or` (R124, R125). -/
def execBrcOr (p : Pre) (d : BitVec 8) (s : State) : Host.Outcome State Fault Refusal := brc 12 p d s

/-- `brc.vs` (R124, R125). -/
def execBrcVs (p : Pre) (d : BitVec 8) (s : State) : Host.Outcome State Fault Refusal := brc 13 p d s

/-- `brc.vc` (R124, R125). -/
def execBrcVc (p : Pre) (d : BitVec 8) (s : State) : Host.Outcome State Fault Refusal := brc 14 p d s

/-- `brc.call` (R125): W[12] is the link. -/
def execBrcCall (p : Pre) (d : BitVec 8) (s : State) : Host.Outcome State Fault Refusal :=
  run s (do
    names s [12] []
    .ok (jump (brcTarget p d s) (setW 12 (nextPc p s) s)))

/-- `xfer.jr` (R127). -/
def execXferJr (p : Pre) (b : BitVec 4) (s : State) : Host.Outcome State Fault Refusal :=
  run s (do
    let t ← oneSrcNoDst (.xferJr p b) s p b
    need (t % 2 = 0) cALIGN t
    .ok (jump t s))

/-- `xfer.callr` (R127). -/
def execXferCallr (p : Pre) (b : BitVec 4) (s : State) : Host.Outcome State Fault Refusal :=
  run s (do
    let t ← oneSrcNoDst (.xferCallr p b) s p b
    names s [12] []
    need (t % 2 = 0) cALIGN t
    .ok (jump t (setW 12 (nextPc p s) s)))

/-- `xfer.ret` (R127). -/
def execXferRet (p : Pre) (s : State) : Host.Outcome State Fault Refusal :=
  run s (do
    names s [12] []
    let _ ← forwarded (.xferRet p) s none none
    reads s [12] []
    let t := regW s 12
    need (t % 2 = 0) cALIGN t
    .ok (jump t s))

/-- `xfer.qcall` (R213): a call of the newest resident version's table. -/
def execXferQcall (p : Pre) (b : BitVec 4) (s : State) : Host.Outcome State Fault Refusal :=
  run s (do
    let t ← oneSrcNoDst (.xferQcall p b) s p b
    names s [12, 13] []
    match newestVersion s with
    | some v =>
      need8 (t / 2 ^ 16 = 0 && t < v.entries.length) (.xferQcall p b)
      .ok (jump (v.entries.getD t 0) (setW 13 v.gp (setW 12 (nextPc p s) s)))
    | none => trap cILL (illValue 8 (.xferQcall p b)))

/-- `sys.rep` (R110, R38, R40): l is the body length minus 1, y the stride. -/
def execSysRep (p : Pre) (l y : BitVec 4) (s : State) : Host.Outcome State Fault Refusal :=
  runFlushed s (fun s => do
    let i := Instr.sysRep p l y
    need8 (!repActive (ctx s).repst.toNat) i
    let imm := !p.imms.isEmpty
    names s (if imm then [] else [15]) []
    reads s (if imm then [] else [15]) []
    let cnt := if imm then immBits p 0 0 else regW s 15
    need8 (!imm || cnt ≤ 0xFFFFFFF) i
    let next := nextPc p s
    match skipChains s (asidOf s) (l.toNat + 1) next with
    | .error f => stall (.fetch f)
    | .ok bodyEnd => do
      need8 (next / 2 ^ 17 = (bodyEnd - 2) / 2 ^ 17) i
      if cnt = 0 then .ok (goTo bodyEnd s)
      else .ok (goTo next (setCtx (fun x => { x with
        repst := repOf next l.toNat y.toNat 0 true imm 0 (if imm then cnt else 0) }) s)))

end Sys2Proof.Machine
end

