-- ==== Sys2Proof/Machine/Float.lean ====
section
/-! DEFINITION. Floating-point formats and arithmetic (R47 to R58): values as exact dyadic numbers, one rounding per result, and
the status bits of FPST. -/

namespace Sys2Proof.Machine

/-- A floating-point format (R47): bits of the exponent and of the mantissa, bias; `ieee` is false for e4m3. -/
structure Fmt where
  eb   : Nat
  mb   : Nat
  bias : Nat
  ieee : Bool := true
  deriving DecidableEq, Repr

def f64 : Fmt := { eb := 11, mb := 52, bias := 1023 }
def f32 : Fmt := { eb := 8, mb := 23, bias := 127 }
def f16 : Fmt := { eb := 5, mb := 10, bias := 15 }
def bf16 : Fmt := { eb := 8, mb := 7, bias := 127 }
def e5m2 : Fmt := { eb := 5, mb := 2, bias := 15 }
def e4m3 : Fmt := { eb := 4, mb := 3, bias := 7, ieee := false }

/-- The format of an element type code (R90); f64 for the codes that name no format. -/
def fmtOf (et : Nat) : Fmt :=
  match et with
  | 8 => e4m3
  | 9 => e5m2
  | 10 => f16
  | 11 => bf16
  | 12 => f32
  | _ => f64

/-- The width of a format. -/
def Fmt.width (f : Fmt) : Nat := 1 + f.eb + f.mb

/-- A value: a NaN with its sign and whether it signals, an infinity, or (-1)^s × m × 2^e. -/
inductive FV
  | nan (s signalling : Bool)
  | inf (s : Bool)
  | fin (s : Bool) (m : Nat) (e : Int)
  deriving DecidableEq, Repr

/-- A result: its bits, the FPST bits it sets (NV 1, DZ 2, OF 4, UF 8, NX 16), and whether it sets QSTAT.SAT. -/
structure FR where
  val : Nat
  st  : Nat := 0
  sat : Bool := false
  deriving DecidableEq, Repr

def stNV : Nat := 1
def stDZ : Nat := 2
def stOF : Nat := 4
def stUF : Nat := 8
def stNX : Nat := 16

/-- The value of a bit pattern (R47). -/
def fdec (f : Fmt) (x : Nat) : FV :=
  let s := bit x (f.eb + f.mb)
  let e := bits x (f.eb + f.mb - 1) f.mb
  let m := x % 2 ^ f.mb
  let top := 2 ^ f.eb - 1
  if f.ieee && e == top then (if m = 0 then .inf s else .nan s (!bit m (f.mb - 1)))
  else if !f.ieee && e == top && m == 2 ^ f.mb - 1 then .nan s false
  else if e = 0 then .fin s m (1 - (f.bias : Int) - f.mb)
  else .fin s (2 ^ f.mb + m) ((e : Int) - f.bias - f.mb)

def FV.isNan : FV → Bool | .nan _ _ => true | _ => false
def FV.isSnan : FV → Bool | .nan _ g => g | _ => false
def FV.sign : FV → Bool | .nan s _ => s | .inf s => s | .fin s _ _ => s
def FV.isZero : FV → Bool | .fin _ m _ => m == 0 | _ => false
def FV.isInf : FV → Bool | .inf _ => true | _ => false

def signBit (f : Fmt) (s : Bool) : Nat := b2n s * 2 ^ (f.eb + f.mb)

/-- The canonical NaN (R49); the sign matters in e4m3 alone. -/
def canonNan (f : Fmt) (s : Bool) : Nat :=
  if f.ieee then (2 ^ f.eb - 1) * 2 ^ f.mb + 2 ^ (f.mb - 1) else 0x7F + signBit f s

def infBits (f : Fmt) (s : Bool) : Nat := (2 ^ f.eb - 1) * 2 ^ f.mb + signBit f s
/-- The code of the largest finite magnitude. -/
def maxFin (f : Fmt) : Nat := if f.ieee then (2 ^ f.eb - 1) * 2 ^ f.mb - 1 else 0x7E

/-- The NaN result of an operation on operands in operand order: NV when one of them signals (R49, R54). -/
def nanFrom (f : Fmt) (xs : List FV) : FR :=
  { val := canonNan f (match xs.find? FV.isNan with | some v => v.sign | none => false)
    st := if xs.any FV.isSnan then stNV else 0 }

/-- An invalid operation (R54). -/
def invalid (f : Fmt) (xs : List FV) : FR := { nanFrom f xs with st := stNV }

/-- Rounding modes (R51). -/
def roundsUp (mode : Nat) (s : Bool) (odd : Bool) (twiceRem unit : Nat) (sticky : Bool) : Bool :=
  match mode with
  | 0 => unit < twiceRem || (unit == twiceRem && (sticky || odd))
  | 1 => false
  | 2 => !s && (twiceRem != 0 || sticky)
  | 3 => s && (twiceRem != 0 || sticky)
  | _ => unit ≤ twiceRem

/-- The number of bits of n. -/
def bitLen (n : Nat) : Nat := if n = 0 then 0 else n.log2 + 1

/-- m × 2^e (and a little more when sticky) as a multiple of 2^q, with whether it is inexact. -/
def roundTo (mode : Nat) (s : Bool) (m : Nat) (e q : Int) (sticky : Bool) : Nat × Bool :=
  if q ≤ e then
    let n := m * 2 ^ (e - q).toNat
    (if roundsUp mode s (n % 2 == 1) 0 1 sticky then n + 1 else n, sticky)
  else
    let k := (q - e).toNat
    let n := m / 2 ^ k
    let r := m % 2 ^ k
    (if roundsUp mode s (n % 2 == 1) (2 * r) (2 ^ k) sticky then n + 1 else n, r != 0 || sticky)

/-- The overflow value (R53). -/
def overflow (f : Fmt) (mode : Nat) (satOn s : Bool) : Nat :=
  let toInf := mode == 0 || mode == 4 || (mode == 2 && !s) || (mode == 3 && s)
  let small := f.width == 8
  if small && satOn then maxFin f + signBit f s
  else if toInf then (if f.ieee then infBits f s else canonNan f s)
  else maxFin f + signBit f s

/-- round(fmt, ±m × 2^e, mode) for m ≠ 0 (R51, R53, R54); `sticky`: the exact magnitude lies a little above m × 2^e. -/
def roundMag (f : Fmt) (mode : Nat) (satOn s : Bool) (m : Nat) (e : Int) (sticky : Bool) : FR :=
  let p : Int := f.mb + 1
  let emin : Int := 1 - (f.bias : Int)
  let top : Int := bitLen m + e
  let q := max (top - p) (emin - f.mb)
  let r := roundTo mode s m e q sticky
  let code := ((q + f.mb + f.bias - 1) * (2 ^ f.mb : Nat) + (r.1 : Int)).toNat
  if maxFin f < code then { val := overflow f mode satOn s, st := stOF + stNX }
  else
    let tiny := decide (top ≤ emin) &&
      !(decide (top = emin) && (roundTo mode s m e (top - p) sticky).1 == 2 ^ (f.mb + 1))
    { val := code + signBit f s, st := if r.2 then (if tiny then stUF + stNX else stNX) else 0 }

/-- round(fmt, x, mode) of a signed exact integer multiple of 2^e; a zero is negative in RD alone. -/
def roundInt (f : Fmt) (mode : Nat) (satOn : Bool) (x : Int) (e : Int) : FR :=
  if x = 0 then { val := signBit f (mode == 3) } else roundMag f mode satOn (x < 0) x.natAbs e false

/-- The integer that a finite value is of 2^e, for e at most its exponent. -/
def scaled (s : Bool) (m : Nat) (e0 e : Int) : Int :=
  let n : Int := (m * 2 ^ (e0 - e).toNat : Nat)
  if s then -n else n

/-- Exact sum of two finite values: signed integer and exponent. -/
def exactAdd (sx : Bool) (mx : Nat) (ex : Int) (sy : Bool) (my : Nat) (ey : Int) : Int × Int :=
  let e := min ex ey
  (scaled sx mx ex e + scaled sy my ey e, e)

/-- x + y (R119). -/
def fadd (f : Fmt) (mode : Nat) (satOn : Bool) (x y : FV) : FR :=
  match x, y with
  | .nan _ _, _ | _, .nan _ _ => nanFrom f [x, y]
  | .inf s, .inf t => if s = t then { val := infBits f s } else invalid f [x, y]
  | .inf s, _ => { val := infBits f s }
  | _, .inf t => { val := infBits f t }
  | .fin s m e, .fin t n g =>
    if m = 0 ∧ n = 0 ∧ s = t then { val := signBit f s }
    else let r := exactAdd s m e t n g; roundInt f mode satOn r.1 r.2

def FV.neg : FV → FV | .nan s g => .nan s g | .inf s => .inf (!s) | .fin s m e => .fin (!s) m e

/-- x × y (R119). -/
def fmul (f : Fmt) (mode : Nat) (satOn : Bool) (x y : FV) : FR :=
  let s := x.sign != y.sign
  match x, y with
  | .nan _ _, _ | _, .nan _ _ => nanFrom f [x, y]
  | .inf _, v => if v.isZero then invalid f [x, y] else { val := infBits f s }
  | v, .inf _ => if v.isZero then invalid f [x, y] else { val := infBits f s }
  | .fin _ m e, .fin _ n g => if m * n = 0 then { val := signBit f s } else roundMag f mode satOn s (m * n) (e + g) false

/-- a + b × c with one rounding (R54, R119). -/
def ffma (f : Fmt) (mode : Nat) (satOn : Bool) (a b c : FV) : FR :=
  let s := b.sign != c.sign
  if (b.isInf && c.isZero) || (b.isZero && c.isInf) then invalid f [a, b, c]
  else match a, b, c with
    | .nan _ _, _, _ | _, .nan _ _, _ | _, _, .nan _ _ => nanFrom f [a, b, c]
    | .inf t, .inf _, _ | .inf t, _, .inf _ => if s = t then { val := infBits f t } else invalid f [a, b, c]
    | .inf t, _, _ => { val := infBits f t }
    | _, .inf _, _ | _, _, .inf _ => { val := infBits f s }
    | .fin t k h, .fin _ m e, .fin _ n g =>
      if k = 0 ∧ m * n = 0 ∧ s = t then { val := signBit f s }
      else let r := exactAdd t k h s (m * n) (e + g); roundInt f mode satOn r.1 r.2

/-- x ÷ y (R123). -/
def fdiv (f : Fmt) (mode : Nat) (satOn : Bool) (x y : FV) : FR :=
  let s := x.sign != y.sign
  match x, y with
  | .nan _ _, _ | _, .nan _ _ => nanFrom f [x, y]
  | .inf _, .inf _ => invalid f [x, y]
  | .inf _, _ => { val := infBits f s }
  | _, .inf _ => { val := signBit f s }
  | .fin _ m e, .fin _ n g =>
    if n = 0 then (if m = 0 then invalid f [x, y] else { val := infBits f s, st := stDZ })
    else if m = 0 then { val := signBit f s }
    else
      let k := 128 + bitLen n
      roundMag f mode satOn s (m * 2 ^ k / n) (e - g - k) (m * 2 ^ k % n != 0)

/-- The integer square root of x below 2^(2n), bit by bit from the top: r is the root found so far, in units of 2^n. -/
def isqrtFrom (x : Nat) : Nat → Nat → Nat
  | 0, r => r
  | n + 1, r => if (r + 2 ^ n) * (r + 2 ^ n) ≤ x then isqrtFrom x n (r + 2 ^ n) else isqrtFrom x n r

def isqrt (x : Nat) : Nat := isqrtFrom x (bitLen x / 2 + 1) 0

/-- √x (R123): √−0 is −0. -/
def fsqrt (f : Fmt) (mode : Nat) (satOn : Bool) (x : FV) : FR :=
  match x with
  | .nan _ _ => nanFrom f [x]
  | .inf s => if s then invalid f [x] else { val := infBits f false }
  | .fin s m e =>
    if m = 0 then { val := signBit f s }
    else if s then invalid f [x]
    else
      let odd := (e % 2).toNat
      let n := m * 2 ^ odd * 2 ^ 256
      let r := isqrt n
      roundMag f mode satOn false r ((e - odd) / 2 - 128) (r * r != n)

/-- Order of two values that are no NaN: x < y, x = y; −0 equals +0. -/
def fless (x y : FV) : Bool :=
  match x, y with
  | .inf s, .inf t => s && !t
  | .inf s, _ => s
  | _, .inf t => !t
  | .fin s m e, .fin t n g => (exactAdd s m e (!t) n g).1 < 0
  | _, _ => false
def feq (x y : FV) : Bool :=
  match x, y with
  | .inf s, .inf t => s == t
  | .fin s m e, .fin t n g => (exactAdd s m e (!t) n g).1 == 0
  | _, _ => false

/-- The bits of the smaller and of the larger operand; −0 is below +0; one NaN gives the other operand (R119). -/
def fminBits (f : Fmt) (a b : Nat) : Nat :=
  let x := fdec f a
  let y := fdec f b
  if x.isNan && y.isNan then canonNan f x.sign
  else if x.isNan then b else if y.isNan then a
  else if fless x y || (feq x y && x.sign) then a else b
def fmaxBits (f : Fmt) (a b : Nat) : Nat :=
  let x := fdec f a
  let y := fdec f b
  if x.isNan && y.isNan then canonNan f x.sign
  else if x.isNan then b else if y.isNan then a
  else if fless y x || (feq x y && !x.sign) then a else b

/-- Sign cleared and sign inverted; a NaN gives the canonical NaN (R119). -/
def fabsBits (f : Fmt) (a : Nat) : Nat :=
  let x := fdec f a
  if x.isNan then canonNan f x.sign else a % 2 ^ (f.eb + f.mb)
def fnegBits (f : Fmt) (a : Nat) : Nat :=
  let x := fdec f a
  if x.isNan then canonNan f x.sign else a ^^^ 2 ^ (f.eb + f.mb)

/-- The class mask of R121. -/
def fclass (f : Fmt) (a : Nat) : Nat :=
  match fdec f a with
  | .nan _ g => if g then 256 else 512
  | .inf s => if s then 1 else 128
  | .fin s m _ =>
    if m = 0 then (if s then 8 else 16)
    else if m < 2 ^ f.mb then (if s then 4 else 32) else (if s then 2 else 64)

/-- A finite value rounded to an integer, with whether that changed it. -/
def toInt (mode : Nat) (s : Bool) (m : Nat) (e : Int) : Int × Bool :=
  let r := roundTo mode s m e 0 false
  (if s then -(r.1 : Int) else r.1, r.2)

/-- Rounding to an integral value; infinities and zeros are kept; NX is the only status bit it sets (R119). -/
def frnd (f : Fmt) (mode : Nat) (a : Nat) : FR :=
  match fdec f a with
  | .nan s _ => { val := canonNan f s }
  | .inf _ => { val := a }
  | .fin s m e =>
    if m = 0 then { val := a }
    else
      let r := toInt mode s m e
      if r.1 = 0 then { val := signBit f s, st := if r.2 then stNX else 0 }
      else { val := (roundMag f 1 true s r.1.natAbs 0 false).val, st := if r.2 then stNX else 0 }

/-- x × 2^n (R119). -/
def fscale (f : Fmt) (mode : Nat) (satOn : Bool) (x : FV) (n : Int) : FR :=
  match x with
  | .nan _ _ => nanFrom f [x]
  | .inf s => { val := infBits f s }
  | .fin s m e => if m = 0 then { val := signBit f s } else roundMag f mode satOn s m (e + max (-10000) (min 10000 n)) false

/-- The result of a conversion: one to e4m3 or e5m2 that overflows with FLG.SAT = 1 saturates, which sets QSTAT.SAT beside OF and NX
(R27, R53, R71; notes/assumptions/80.md). -/
def saturates (f : Fmt) (satOn : Bool) (r : FR) : FR := { r with sat := f.width == 8 && satOn && bit r.st 2 }

/-- Conversion to a floating-point format (R56). -/
def fconv (f : Fmt) (mode : Nat) (satOn : Bool) (x : FV) : FR :=
  match x with
  | .nan _ _ => nanFrom f [x]
  | .inf s => { val := if f.ieee then infBits f s else if satOn then maxFin f + signBit f s else canonNan f s, sat := !f.ieee && satOn }
  | .fin s m e => if m = 0 then { val := signBit f s } else saturates f satOn (roundMag f mode satOn s m e false)

/-- The range of an integer type of w bits. -/
def intLo (isSigned : Bool) (w : Nat) : Int := if isSigned then -(2 ^ (w - 1) : Nat) else 0
def intHi (isSigned : Bool) (w : Nat) : Int := if isSigned then (2 ^ (w - 1) : Nat) - 1 else (2 ^ w : Nat) - 1

/-- Conversion to an integer type (R57). -/
def fToInt (isSigned : Bool) (w mode : Nat) (satOn : Bool) (x : FV) : FR :=
  let lo := intLo isSigned w
  let hi := intHi isSigned w
  let out := fun (high : Bool) =>
    if satOn then ({ val := narrow w (if high then hi else lo), sat := true } : FR) else { val := 2 ^ (w - 1), st := stNV }
  match x with
  | .nan _ _ => { val := if satOn then 0 else 2 ^ (w - 1), st := stNV }
  | .inf s => out (!s)
  | .fin s m e =>
    let r := toInt mode s m (min e 4096)
    if hi < r.1 then out true else if r.1 < lo then out false
    else { val := narrow w r.1, st := if r.2 then stNX else 0 }

/-- Conversion from an integer (R58). -/
def intToF (f : Fmt) (mode : Nat) (satOn : Bool) (x : Int) : FR :=
  if x = 0 then { val := 0 } else saturates f satOn (roundMag f mode satOn (x < 0) x.natAbs 0 false)

/-- Conversion between integer types (R58). -/
def intToInt (isSigned : Bool) (w : Nat) (satOn : Bool) (x : Int) : FR :=
  let lo := intLo isSigned w
  let hi := intHi isSigned w
  if satOn && decide (hi < x) then { val := narrow w hi, sat := true }
  else if satOn && decide (x < lo) then { val := narrow w lo, sat := true }
  else { val := narrow w x }

end Sys2Proof.Machine
end

