-- ==== Sys2Proof/Machine/Lanes.lean ====
section
/-! DEFINITION. Lanes and elements of every type code: widths (R90, R141), lane arithmetic (R145, R147), comparison (R148),
conversion (R56 to R58, R151), bit planes (R61, R62), block quantisation (R70 to R72), immediates (R73), trees (R68) and the long
vector functions (R161). -/

namespace Sys2Proof.Machine

/-- Bits of an element type code (R90, R131); lut4 is 4, bp is a byte in a register (R152). -/
def etWidth (et : Nat) : Nat :=
  match et with
  | 0 | 4 | 8 | 9 | 15 => 8
  | 1 | 5 | 10 | 11 => 16
  | 2 | 6 | 12 => 32
  | 14 => 4
  | _ => 64

/-- Integer types (R46), signed ones. -/
def isInt (et : Nat) : Bool := et < 8
def isSigned (et : Nat) : Bool := et < 4

/-- Bytes of an element. -/
def etBytes (et : Nat) : Nat := etWidth et / 8

/-- Lanes of a 64-byte register in elements of n bytes (R141). -/
def lanes (n : Nat) (bs : List Byte) : List Nat := (List.range (64 / n)).map (fun i => numLE ((bs.drop (n * i)).take n))

/-- The bytes of lanes. -/
def unlanes (n : Nat) (xs : List Nat) : List Byte := xs.flatMap (fun x => bytesLE x n)

/-- The value of an integer lane. -/
def laneInt (et x : Nat) : Int := if isSigned et then sv x (etWidth et) else x

/-- An integer lane result: the low bits. -/
def wrapLane (et : Nat) (x : Int) : FR := { val := narrow (etWidth et) x }

/-- How a vector instruction rounds and saturates (R52, R53). -/
structure Rnd where
  mode : Nat
  sat  : Bool
  deriving DecidableEq, Repr

/-! ## Lane arithmetic (R147) -/

def laneAdd (et : Nat) (m : Rnd) (x y : Nat) : FR :=
  if isInt et then wrapLane et (laneInt et x + laneInt et y) else fadd (fmtOf et) m.mode m.sat (fdec (fmtOf et) x) (fdec (fmtOf et) y)

def laneSub (et : Nat) (m : Rnd) (x y : Nat) : FR :=
  if isInt et then wrapLane et (laneInt et x - laneInt et y)
  else fadd (fmtOf et) m.mode m.sat (fdec (fmtOf et) x) (fdec (fmtOf et) y).neg

def laneMul (et : Nat) (m : Rnd) (x y : Nat) : FR :=
  if isInt et then wrapLane et (laneInt et x * laneInt et y) else fmul (fmtOf et) m.mode m.sat (fdec (fmtOf et) x) (fdec (fmtOf et) y)

/-- z + x × y, z first in operand order (R49). -/
def laneFma (et : Nat) (m : Rnd) (z x y : Nat) : FR :=
  if isInt et then wrapLane et (laneInt et z + laneInt et x * laneInt et y)
  else ffma (fmtOf et) m.mode m.sat (fdec (fmtOf et) z) (fdec (fmtOf et) x) (fdec (fmtOf et) y)

def laneMin (et x y : Nat) : Nat := if isInt et then (if laneInt et x ≤ laneInt et y then x else y) else fminBits (fmtOf et) x y
def laneMax (et x y : Nat) : Nat := if isInt et then (if laneInt et x ≤ laneInt et y then y else x) else fmaxBits (fmtOf et) x y

def laneShl (et x y : Nat) : Nat := if etWidth et ≤ y then 0 else x * 2 ^ y % 2 ^ etWidth et
def laneShr (et x y : Nat) : Nat := if etWidth et ≤ y then 0 else x / 2 ^ y
def laneSar (et x y : Nat) : Nat := narrow (etWidth et) (sv x (etWidth et) / (2 ^ min y (etWidth et) : Nat))

def laneAbs (et x : Nat) : Nat :=
  if isInt et then narrow (etWidth et) ((laneInt et x).natAbs : Int) else fabsBits (fmtOf et) x
def laneNeg (et x : Nat) : Nat := if isInt et then narrow (etWidth et) (-laneInt et x) else fnegBits (fmtOf et) x

/-! ## Comparison (R148): false with a NaN -/

def laneNan (et x : Nat) : Bool := !isInt et && (fdec (fmtOf et) x).isNan
def laneEq (et x y : Nat) : Bool :=
  if isInt et then x == y else !laneNan et x && !laneNan et y && feq (fdec (fmtOf et) x) (fdec (fmtOf et) y)
def laneLt (et x y : Nat) : Bool :=
  if isInt et then laneInt et x < laneInt et y
  else !laneNan et x && !laneNan et y && fless (fdec (fmtOf et) x) (fdec (fmtOf et) y)
def laneLe (et x y : Nat) : Bool := laneLt et x y || laneEq et x y

/-- A mask with bit i for lane i. -/
def maskOf : List Bool → Nat
  | [] => 0
  | b :: bs => b2n b + 2 * maskOf bs

/-! ## Trees (R68) -/

/-- One level of the tree. -/
def pairUp {α : Type} (f : α → α → α) : List α → List α
  | x :: y :: r => f x y :: pairUp f r
  | l => l

/-- At most 64 leaves, combined in six levels. -/
def tree {α : Type} (f : α → α → α) (l : List α) : List α := pairUp f (pairUp f (pairUp f (pairUp f (pairUp f (pairUp f l)))))

/-- A node of a sum. -/
def nodeAdd (et : Nat) (m : Rnd) (x y : FR) : FR :=
  let r := laneAdd et m x.val y.val
  { val := r.val, st := r.st ||| x.st ||| y.st, sat := r.sat || x.sat || y.sat }

/-- The canonical NaN of the first NaN of two operands. -/
def nodeNan (et x y : Nat) : Nat := canonNan (fmtOf et) (if laneNan et x then (fdec (fmtOf et) x).sign else (fdec (fmtOf et) y).sign)

/-- A node of a largest or smallest value: a NaN gives the canonical NaN. -/
def nodeMax (et x y : Nat) : Nat := if laneNan et x || laneNan et y then nodeNan et x y else laneMax et x y
def nodeMin (et x y : Nat) : Nat := if laneNan et x || laneNan et y then nodeNan et x y else laneMin et x y

/-- The root of a tree of FRs. -/
def rootFR (l : List FR) : FR := l.headD { val := 0 }

/-- A lane in a w register: sign-extended for i types, zero-extended otherwise (R148, R149). -/
def laneW (et x : Nat) : Nat := if isSigned et then narrow 64 (sv x (etWidth et)) else x

/-! ## Products of three factors (R150) -/

/-- An exact product; none for 0 × ∞. -/
def fvMul (x y : FV) : Option FV :=
  let s := x.sign != y.sign
  match x, y with
  | .nan t g, _ => some (.nan t g)
  | _, .nan t g => some (.nan t g)
  | .inf _, v => if v.isZero then none else some (.inf s)
  | v, .inf _ => if v.isZero then none else some (.inf s)
  | .fin _ m e, .fin _ n g => some (.fin s (m * n) (e + g))

/-- a + x × y × z, rounded once. -/
def fma3 (f : Fmt) (m : Rnd) (a x y z : FV) : FR :=
  match fvMul x y with
  | none => invalid f [a, x, y, z]
  | some p =>
    match fvMul p z with
    | none => invalid f [a, x, y, z]
    | some q =>
      if a.isNan || q.isNan then nanFrom f [a, x, y, z] else ffma f m.mode m.sat a q (.fin false 1 0)

/-! ## Conversion (R151) -/

/-- Element x of type `src` converted to type `dst`. -/
def convLane (dst src : Nat) (m : Rnd) (x : Nat) : FR :=
  if isInt src then
    (if dst = src then { val := x }
     else if isInt dst then intToInt (isSigned dst) (etWidth dst) m.sat (laneInt src x)
     else intToF (fmtOf dst) m.mode m.sat (laneInt src x))
  else if isInt dst then fToInt (isSigned dst) (etWidth dst) m.mode m.sat (fdec (fmtOf src) x)
  else fconv (fmtOf dst) m.mode m.sat (fdec (fmtOf src) x)

/-! ## Bit planes (R61, R62) -/

/-- Bit of element e in plane j of a line. -/
def planeBit (line : List Byte) (j e : Nat) : Bool := ((line.getD (32 * j + e / 8) 0).toNat).testBit (e % 8)

/-- The value used of element e at k planes. -/
def bpValue (line : List Byte) (k e : Nat) : Int :=
  let q := sv ((List.range k).foldl (fun v j => 2 * v + b2n (planeBit line j e)) 0) k
  if k = 8 then q else q * (2 ^ (8 - k) : Nat) + (2 ^ (7 - k) : Nat)

/-- The line of 256 signed bytes. -/
def bpLine (v : List Byte) : List Byte :=
  (List.range 256).map (fun b =>
    BitVec.ofNat 8 (maskOf ((List.range 8).map (fun i => ((v.getD (8 * (b % 32) + i) 0).toNat).testBit (7 - b / 32)))))

/-- Code i of a lut4 array (R59). -/
def lutCode (bs : List Byte) (i : Nat) : Nat := let b := (bs.getD (i / 2) 0).toNat; if i % 2 = 0 then b % 16 else b / 16

/-- Entry c of a code table. -/
def lutEntry (t : BitVec 128) (c : Nat) : Byte := BitVec.ofNat 8 (bits t.toNat (8 * c + 7) (8 * c))

/-! ## Block quantisation (R70 to R72) -/

/-- floor(log2 |x|) of a finite value that is not 0. -/
def floorLog2 (m : Nat) (e : Int) : Int := (bitLen m : Int) - 1 + e

/-- The largest of the finite, nonzero values: its floor(log2); none when there is none. -/
def maxLog2 (xs : List FV) : Option Int :=
  xs.foldl (fun r x => match x with
    | .fin _ m e => if m = 0 then r else
        let l := floorLog2 m e
        match r with | none => some l | some k => some (max k l)
    | _ => r) none

def emaxOf (et : Nat) : Int := match et with | 8 => 8 | 9 => 15 | _ => 6

/-- X of R70 for a block without NaN. -/
def blockExp (et : Nat) (xs : List FV) : Int :=
  if xs.all FV.isInf then 0
  else match maxLog2 xs with
    | none => -127
    | some l => max (-127) (min 127 (l - emaxOf et))

/-- One element of a block, scaled by 2^-X (R70, R71). -/
def qntElem (et mode : Nat) (x : Int) (v : FV) : FR :=
  if et = 8 ∨ et = 9 then
    let f := fmtOf et
    match v with
    | .nan s _ => { val := canonNan f s }
    | .inf s => if et = 8 then { val := maxFin f + signBit f s, sat := true } else { val := infBits f s }
    | .fin s m e =>
      if m = 0 then { val := signBit f s }
      else let r := roundMag f mode true s m (e - x) false; { r with sat := bit r.st 2 }
  else
    match v with
    | .nan _ _ => { val := 0 }
    | .inf s => { val := narrow 8 (if s then -127 else 127), sat := true }
    | .fin s m e =>
      let r := toInt mode s m (e - x)
      if 127 < r.1 then { val := 127, sat := true }
      else if r.1 < -127 then { val := narrow 8 (-127), sat := true }
      else { val := narrow 8 r.1, st := if r.2 then stNX else 0 }

/-- The quantised block and its scale byte. -/
def quantise (et mode : Nat) (xs : List FV) : List FR × Nat :=
  if xs.any FV.isNan then
    (xs.map (fun v =>
      if et = 8 ∨ et = 9 then { val := canonNan (fmtOf et) (v.isNan && v.sign), st := stNV } else { val := 0, st := stNV }), 255)
  else
    let x := blockExp et xs
    (xs.map (qntElem et mode x), (x + 127).toNat)

/-- One element times 2^(scale − 127), as f32 (R72). -/
def dqntElem (et : Nat) (m : Rnd) (scale : Nat) (x : Nat) : FR :=
  let v : FV := if et = 8 ∨ et = 9 then fdec (fmtOf et) x else
    let i := sv x 8
    .fin (i < 0) i.natAbs 0
  if scale = 255 then { val := canonNan f32 false, st := if v.isSnan then stNV else 0 }
  else match v with
    | .fin s k e => fconv f32 m.mode m.sat (.fin s k (e + scale - 127))
    | w => fconv f32 m.mode m.sat w

/-! ## Immediates (R73, R160) -/

/-- The immediate of lane i. -/
def immLane (et imm i : Nat) : Nat :=
  match et with
  | 0 | 4 | 8 | 9 => if i % 2 = 0 then imm % 256 else imm / 256 % 256
  | 10 | 11 => imm
  | 12 => (fconv f32 0 true (fdec bf16 imm)).val
  | 13 => (fconv f64 0 true (fdec bf16 imm)).val
  | _ => narrow (etWidth et) (sv imm 16)

/-! ## 2^x, log2 x, 1/√x (R161). Each irrational result is rounded from a lower bound of its magnitude that is nearer to it
than 2^-380 (fixed point of 400 bits); exact results are exact. -/

/-- Fraction bits of the fixed point. -/
def fixP : Nat := 400

/-- 2·atanh(n/d) in fixed point, rounded down: the sum of `fuel` terms. -/
def atanhSum (t t2 : Nat) : Nat → Nat → Nat
  | 0, _ => 0
  | fuel + 1, k => t / k + atanhSum (t * t2 / 2 ^ fixP) t2 fuel (k + 2)

/-- ln(p/q) for q ≤ p < 2q in fixed point, rounded down. -/
def lnRatio (p q : Nat) : Nat :=
  let t := (p - q) * 2 ^ fixP / (p + q)
  2 * atanhSum t (t * t / 2 ^ fixP) 130 1

/-- ln 2 in fixed point, rounded down. -/
def ln2Fix : Nat := lnRatio (2 ^ 401 - 1) (2 ^ 400)

/-- e^z for 0 ≤ z < 1 in fixed point, rounded down. -/
def expSum (z term : Nat) : Nat → Nat → Nat
  | 0, _ => 0
  | fuel + 1, k => term + expSum z (term * z / 2 ^ fixP / k) fuel (k + 1)

/-- 2^f for a fraction f in fixed point, rounded down. -/
def exp2Fix (f : Nat) : Nat := expSum (f * ln2Fix / 2 ^ fixP) (2 ^ fixP) 90 1

/-- 2^x. -/
def fexp2 (f : Fmt) (m : Rnd) (x : FV) : FR :=
  match x with
  | .nan s _ => { val := canonNan f s }
  | .inf s => if s then { val := 0 } else { val := infBits f false }
  | .fin s k e =>
    let e := min e 64
    let n : Int := if e < 0 then scaled s k 0 0 / (2 ^ (-e).toNat : Nat) else scaled s k e 0
    let n := max (-8192) (min 8192 n)
    if k = 0 ∨ 0 ≤ e ∨ k % 2 ^ (-e).toNat = 0 then roundMag f m.mode m.sat false 1 n false
    else
      let r := (scaled s k 0 0 % (2 ^ (-e).toNat : Nat)).toNat
      roundMag f m.mode m.sat false (exp2Fix (r * 2 ^ fixP / 2 ^ (-e).toNat)) (n - fixP) true

/-- log2 x. -/
def flog2 (f : Fmt) (m : Rnd) (x : FV) : FR :=
  match x with
  | .nan s _ => { val := canonNan f s }
  | .inf s => if s then invalid f [x] else { val := infBits f false }
  | .fin s k e =>
    if k = 0 then { val := infBits f true, st := stDZ }
    else if s then invalid f [x]
    else
      let b := bitLen k
      if k = 2 ^ (b - 1) then intToF f m.mode m.sat ((b : Int) - 1 + e)
      else
        let big := 0 < (b : Int) + e
        let n : Int := if big then (b : Int) - 1 + e else -e - b
        let l := (if big then lnRatio k (2 ^ (b - 1)) else lnRatio (2 ^ b) k) * 2 ^ fixP / (ln2Fix + 2 ^ 12)
        roundMag f m.mode m.sat (!big) (n.toNat * 2 ^ fixP + l) (-(fixP : Int)) true

/-- 1/√x. -/
def frsqrt (f : Fmt) (m : Rnd) (x : FV) : FR :=
  match x with
  | .nan s _ => { val := canonNan f s }
  | .inf s => if s then invalid f [x] else { val := 0 }
  | .fin s k e =>
    if k = 0 then { val := infBits f s, st := stDZ }
    else if s then invalid f [x]
    else
      let odd := (e % 2).toNat
      let n := k * 2 ^ odd
      let p := 128 + bitLen n
      let r := isqrt (2 ^ (2 * p) / n)
      roundMag f m.mode m.sat false r (-((e - odd) / 2) - p) (r * r * n != 2 ^ (2 * p))

/-- 1/x. -/
def frcp (f : Fmt) (m : Rnd) (x : FV) : FR :=
  match x with
  | .nan s _ => { val := canonNan f s }
  | v => fdiv f m.mode m.sat (.fin false 1 0) v

end Sys2Proof.Machine
end

