-- ==== Sys2Proof/Machine/EngineBytes.lean ====
section
/-! DEFINITION. Which local store bytes the queued and running commands of the MXU and of the copy channels name (R133, R137). -/

namespace Sys2Proof.Machine

/-- Local store ranges of an MXU command. -/
def mxuRanges (e : MxuCmd) : List (Nat × Nat) := cmdRanges e.cmd

/-- Do queued or running MXU commands name bytes of a range? -/
def mxuNames (c : Core) (lo n : Nat) : Bool := c.mxu.q.any (fun e => (mxuRanges e).any (fun r => meets lo n r.1 r.2))

/-- Do copy commands name bytes of a range? -/
def copyNames (c : Core) (lo n : Nat) : Bool :=
  c.chans.any (fun ch => ch.q.any (fun e => (copyRanges e).any (fun r => meets lo n r.1 r.2)))

end Sys2Proof.Machine
end

