-- ==== Sys2Proof/Machine/Mem.lean ====
section
/-! DEFINITION. Loads and stores of the local store and its stash windows (R130 to R135, R246, R247, R254, R313) and the MEM
instructions (R136 to R140). -/

namespace Sys2Proof.Machine

/-! ## Addresses, types, orders -/

/-- The memory qualifier of a chain (R88): element type, order, scope, nt. -/
def memEt (p : Pre) : Nat := match p.qual with | some q => q.et.toNat | none => 3
def memOrder (p : Pre) : Nat := match p.qual with | some q => q.order.toNat | none => 0
def memNt (p : Pre) : Bool := match p.qual with | some q => q.nt | none => false
def memScope (p : Pre) : Nat := match p.qual with | some q => q.scope.toNat | none => 0

/-- Effective scope of an access (R130, R255). -/
def effScope (p : Pre) (ea : Nat) (s : State) : Nat :=
  match winAt s.core ea with
  | none => memScope p
  | some (_, w) =>
    let sc := max (memScope p) 1
    if sc = 2 && homeDie s (asidOf s) (w.va + (ea - w.base)) != dieOf s.core.id then 3 else sc

/-- The checks of an access (R132). -/
def checkAccess (s : State) (ea size : Nat) : Res Unit := do
  need (ea + size - 1 ≤ 0x1FFFF) cLSPROT ea
  need (ea < 0x1F000 || (ctx s).priv) cLSPROT ea
  need (ea % size = 0) cALIGN ea

/-- An access stalls for an MXU command that names its bytes, and for a sector that is not valid (R133). -/
def awaitBytes (s : State) (ea size : Nat) : Res Unit :=
  if mxuNames s.core ea size then stall (.mxuBytes ea size)
  else if sectorValid s.core ea then .ok () else stall (.fill ea)

/-! ## The hardware region (R22, R24) -/

/-- The 32 bytes of a message (R188). -/
def msgBytes (m : Msg) : List Byte := bytesLE m.hdr.toNat 16 ++ bytesLE m.t0.toNat 8 ++ bytesLE m.t1.toNat 8

/-- The 32 bytes of a forwarding entry: its values in list order (R239). -/
def fwdBytes (f : FwdState) : List Byte :=
  match f with | .valid _ _ vs => vs.flatMap (fun v => bytesLE v.toNat 8) | .empty | .poison _ _ => []

/-- A byte of the hardware region as privileged code reads it. What the spec leaves open of it is the model's choice
(notes/assumptions/72.md): the 64 slots of the inbound queue show its entries from the head on, free ones 0; the output-buffer shadow shows
the first held output when that is a message, in the form of R188, and 0 otherwise; the aperture shows 0 for a live context that has no
record yet. -/
def hwByte (c : Core) (a : Nat) : Byte :=
  if a < 0x1F800 then
    (match c.inbound[(a - 0x1F000) / 32]? with | some m => (msgBytes m).getD (a % 32) 0 | none => 0)
  else if a < 0x1FA00 then
    (match c.mxu.q[(a - 0x1F800) / 64]? with | some e => (bytesLE e.cmd.toNat 64).getD (a % 64) 0 | none => 0)
  else if a < 0x1FE00 then (fwdBytes (c.fwd.getD ((a - 0x1FA00) / 32) .empty)).getD (a % 32) 0
  else if a < 0x1FE40 then
    (match c.act with
     | some t =>
       (match t.held with
        | { out := .msg m, .. } :: _ => (msgBytes m).getD (a % 64) 0
        | _ => 0)
     | none => 0)
  else if a < 0x1FE48 then (bytesLE c.snapsel.toNat 8).getD (a - 0x1FE40) 0
  else if a < 0x1FE80 then 0
  else
    let x := c.ctxs.getD (bits c.snapsel.toNat 3 0) {}
    let j := 384 * bits c.snapsel.toNat 6 4 + (a - 0x1FE80)
    if x.live && j < 1568 then (match x.snap with | some r => memRead r j | none => 0) else 0

/-- Bytes that privileged code writes into the hardware region: those of SNAPSEL take effect (R23, R24). -/
def hwPut (a : Nat) (bs : List Byte) (c : Core) : Core :=
  let old := bytesLE c.snapsel.toNat 8
  let new := (List.range 8).map (fun i => if a ≤ 0x1FE40 + i then bs.getD (0x1FE40 + i - a) (old.getD i 0) else old.getD i 0)
  { c with snapsel := BitVec.ofNat 64 (numLE new % 128) }

/-- n bytes as a load of the issuing context reads them. -/
def loadBytes (s : State) (ea n : Nat) : List Byte :=
  if ea < 0x1F000 then readBytes (lsView s) ea n else (List.range n).map (fun i => hwByte s.core (ea + i))

/-- A load by an order (R254): the value is fixed by `k`, after a home read for strong and acq at die scope or wider, and before
the acquire of acq. -/
def loadAt (p : Pre) (ea size : Nat) (s : State) (k : State → State) : Res State := do
  checkAccess s ea size
  awaitBytes s ea size
  readable s ea size
  let sc := effScope p ea s
  let o := memOrder p
  match winAt s.core ea with
  | some (i, w) =>
    let n := sectorOf w ea
    if (o = 1 || o = 3) && 2 ≤ sc && stageOf s = 0 && !w.tagged.any (fun t => sectorOf w t.1 == n) then
      .ok (block (.fill ea) (setStage 1 (updCore (updWin i (invalidateSector n)) s)))
    else if o = 3 then acquire sc (k s) else .ok (k s)
  | none => if o = 3 then acquire sc (k s) else .ok (k s)

/-- A scalar load's register value (R131): sign-extended for i types, zero-extended otherwise. -/
def loadValue (et : Nat) (bs : List Byte) : Nat :=
  if et < 4 then narrow 64 (sv (numLE bs) (etWidth et)) else numLE bs

/-- The effective address of a load and of a store (R130). -/
def loadEa (p : Pre) (b : Nat) : Nat := (b + immS64 p 0 0) % 2 ^ 64
def storeEa (p : Pre) (l : BitVec 4) (b : Nat) : Nat := (b + immS64 p 4 l.toNat) % 2 ^ 64

/-- `ld` (R131). -/
def execLd (p : Pre) (a b l : BitVec 4) (s : State) : Host.Outcome State Fault Refusal :=
  let s := longRoom s
  run s (inParts s (do
      let x ← oneSrc (.ld p a b l) s p a b
      .ok [loadEa p x])
    (fun o =>
      let et := memEt p
      let n := etWidth et / 8
      let ea := o.getD 0 0
      loadAt p ea n s (fun s => retire p
        (pushLong l.toNat { addr := wAddr s (wA p a), bytes := bytesLE (loadValue et (loadBytes s ea n)) 8, flags := none, left := 0 } s))))

/-- `ld.v` (R131). -/
def execLdV (p : Pre) (a b l : BitVec 4) (s : State) : Host.Outcome State Fault Refusal :=
  let s := longRoom s
  run s (inParts s (do
      names s [wB p b] [vA s p a]
      let f ← forwarded (.ldV p a b l) s (some (wB p b)) none
      reads s (unreplaced f [wB p b] []) []
      .ok [loadEa p (srcB s f (wB p b))])
    (fun o =>
      let ea := o.getD 0 0
      loadAt p ea 64 s (fun s => retire p
        (pushLong l.toNat { addr := vAddr s (vA s p a), bytes := loadBytes s ea 64, flags := none, left := 0 } s))))

/-! ## Stores -/

/-- Entries of the holding buffer that held outputs take (R247). Stash bytes take none (R249). -/
def heldSize (hs : List Held) : Nat := hs.foldl (fun n e => match e.out with | .arm _ _ _ => n + 2 | .stash _ _ => n | _ => n + 1) 0

def heldNow (s : State) : List Held := match s.core.act with | some a => a.held | none => []

/-- Hold an output of the issuing context, the next of the core in its send order (R400). -/
def hold (o : Output) (s : State) : State :=
  updCore (fun c => { c with sent := c.sent + 1 })
    (updAct (fun a => { a with held := a.held ++ [{ ctx := s.core.cur, out := o, seq := s.core.sent }] }) s)

/-- The aligned doublewords that a store touches (R313). -/
def doublewords (ea n : Nat) : List Nat := (List.range ((ea % 8 + n + 7) / 8)).map (fun i => ea / 8 * 8 + 8 * i)

/-- Event records of a store: one for each 16 bytes (R305). -/
def noteStore (kind addr : Nat) : List Byte → State → State
  | bs, s => (List.range ((bs.length + 15) / 16)).foldl (fun t i =>
      let part := (bs.drop (16 * i)).take 16
      note kind part.length 0 (addr + 16 * i) (numLE part) t) s

/-- The event records of a store, by its address in the local store or, in a stash window, its global one (R305). -/
def noteAt (ea : Nat) (bs : List Byte) (s : State) : State :=
  if 0x1F000 ≤ ea then s
  else match winAt s.core ea with
    | some (_, w) => noteStore 2 (w.va + (ea - w.base)) bs s
    | none => noteStore 1 ea bs s

/-- The bytes of a store in the local store: tagged in a stash window (R135). Reserved bytes and SNAPSEL are written by privileged code
only (R23). -/
def placeStore (ea : Nat) (bs : List Byte) (s : State) : State :=
  if 0x1F000 ≤ ea then updCore (hwPut ea bs) s else updCore (lsPut s.core.cur ea bs) s

/-- The doublewords that a store to plain local store changes are journalled in PAIR and TRIAD modes (R313). -/
def journalStore (ea n : Nat) (s : State) : State :=
  if redundant s && decide (ea < 0x1F000) && (winAt s.core ea).isNone then
    setCtx (fun x => { x with journal := (doublewords ea n).map (fun d => (d, readBytes s.core.ls d 8)) ++ x.journal }) s
  else s

/-- A store takes effect in the local store, with its records and journal entries. -/
def putStore (ea : Nat) (bs : List Byte) (s : State) : State := noteAt ea bs (placeStore ea bs (journalStore ea bs.length s))

/-- Does a store to plain local store need more journal entries than remain (R313)? -/
def journalFull (ea n : Nat) (s : State) : Bool :=
  redundant s && decide (ea < 0x1F000) && (winAt s.core ea).isNone && 512 < (ctx s).journal.length + (doublewords ea n).length

/-- The physical addresses of a sector of a window. -/
def sectorPas (s : State) (w : Win) (n : Nat) : List Nat :=
  (List.range 64).filterMap (fun j => paOf s (asidOf s) (w.va + 64 * n + j))

/-- The physical addresses of the sector that holds a global address. -/
def sectorAt (s : State) (va : Nat) : List Nat := (List.range 64).filterMap (fun j => paOf s (asidOf s) (va / 64 * 64 + j))

/-- An implicit commit point (R419) when one is needed, then the store. -/
def implicitCommit (needed : Bool) (s : State) (cont : State → State) : State :=
  if needed && stageOf s == 0 then withCommit 0 id s cont else cont s

/-- Bytes that p selects among those tagged in a window, as held outputs of the contexts that have stored them (R249): the window no
longer keeps them. -/
def tagsHeld (i : Nat) (p : Win → Nat × Nat → Bool) (s : State) : State :=
  match s.core.wins.getD i none with
  | none => s
  | some w =>
    let mine := w.tagged.filter (p w)
    updCore (updWin i (fun w => { w with tagged := w.tagged.filter (fun t => !p w t) }))
      (updAct (fun a => { a with held := a.held ++ mine.map (fun t =>
        { ctx := t.2, out := .stash (w.va + (t.1 - w.base)) [memRead s.core.ls t.1], bad := s.core.poison.contains (t.1 / 8) }) }) s)

/-- A non-temporal store, which bypasses the stash (R134, R246): `va` is its global address. Bytes that other contexts of a redundant
activation have tagged in the sector stay held by them: they were stored before it (R251). -/
def ntStore (p : Pre) (ea va : Nat) (bs : List Byte) (s : State) : Res State := do
  need (stageOf s != 0 || (winAt s.core ea).isSome) cLSPROT ea
  let full := 254 < heldSize (heldNow s)
  let tagged := match winAt s.core ea with | some (_, w) => w.tagged.any (fun t => sectorOf w t.1 == sectorOf w ea) | none => false
  .ok (implicitCommit (full || tagged) s (fun t =>
    if 254 < heldSize (heldNow t) then block .holding t
    else
      let pas := sectorAt t va
      let t := if secondary t then t else flushNow (fun d => pas.contains d.pa) t
      let t := match winAt t.core ea with
        | some (i, w) => updCore (updWin i (invalidateSector (sectorOf w ea))) (tagsHeld i (fun w x => sectorOf w x.1 == sectorOf w ea) t)
        | none => t
      retire p (noteStore 3 va bs (hold (.nt va bs) t))))

/-- A strong store wider than core, or a rel store, takes effect: its bytes are in the local store, committed, and accepted at their homes
with the rest of their sector, in one step (R254, R258). No other party has seen them before. -/
def performStore (inWin : Bool) (ea va sc : Nat) (bs : List Byte) (s : State) : State :=
  let own := updCore (fun c => { c with
    ls := writeBytes c.ls ea bs
    wins := c.wins.map (Option.map (remember c.ls ea bs.length))
    poison := unmark ea bs.length c.poison })
  if 0x1F000 ≤ ea then updCore (hwPut ea bs) s
  else if !inWin || secondary s then own s
  else
    let t := commitBytes ((List.range bs.length).map (fun i => (va + i, bs.getD i 0, false))) (own s)
    if 2 ≤ sc then flushSectors (sectorAt t va) t else t

/-- A store by its order (R135, R254): weak, or strong at core scope; strong wider and rel are commit points that the store
belongs to, and take effect after them, rel after the effect of its fence. `inWin`, `va` and `sc` say whether it addresses a stash
window, its global address and its effective scope. -/
def storeAt (p : Pre) (inWin : Bool) (ea va sc : Nat) (bs : List Byte) (s : State) : Res State := do
  let o := memOrder p
  let ordered := o = 2 || (o = 1 && sc != 0)
  let done := fun (t : State) => retire p (performStore inWin ea va sc bs t)
  let nxt := fun (t : State) => after p (placeStore ea bs t)
  let finish := fun (t : State) => if o = 2 then released true 2 nxt sc done t else withCommit 2 nxt t done
  if 2 ≤ stageOf s then .ok (finish s)
  else do
    checkAccess s ea bs.length
    need (ea < 0x1F000 || (0x1FE40 ≤ ea && ea < 0x1FE80)) cLSPROT ea
    if memNt p then
      if mxuNames s.core ea bs.length then stall (.mxuBytes ea bs.length) else ntStore p ea va bs s
    else
      awaitBytes s ea bs.length
      if inWin && !writableRange s (asidOf s) va 1 then stall (.dataFault va)
      .ok (implicitCommit (journalFull ea bs.length s) s (fun t =>
        if ordered then finish (setStage 2 (noteAt ea bs t)) else retire p (putStore ea bs t)))

/-- What a store latches at its issue: address, value, whether it addresses a stash window, global address, effective scope. -/
def storeOps (p : Pre) (ea v : Nat) (s : State) : List Nat :=
  [ea, v, b2n (winAt s.core ea).isSome, match winAt s.core ea with | some (_, w) => w.va + (ea - w.base) | none => 0, effScope p ea s]

/-- The store with its latched operands. -/
def storeWith (p : Pre) (n : Nat) (s : State) (o : List Nat) : Res State :=
  storeAt p (o.getD 2 0 == 1) (o.getD 0 0) (o.getD 3 0) (o.getD 4 0) (bytesLE (o.getD 1 0) n) s

/-- `st` (R131). -/
def execSt (p : Pre) (a b l : BitVec 4) (s : State) : Host.Outcome State Fault Refusal :=
  run s (inParts s (do
      names s [wA p a, wB p b] []
      let f ← forwarded (.st p a b l) s (some (wB p b)) none
      reads s ([wA p a] ++ unreplaced f [wB p b] []) []
      .ok (storeOps p (storeEa p l (srcB s f (wB p b))) (regW s (wA p a)) s))
    (storeWith p (etWidth (memEt p) / 8) s))

/-- `st.v` (R131). -/
def execStV (p : Pre) (a b l : BitVec 4) (s : State) : Host.Outcome State Fault Refusal :=
  run s (inParts s (do
      names s [wB p b] [vA s p a]
      let f ← forwarded (.stV p a b l) s (some (wB p b)) none
      reads s (unreplaced f [wB p b] []) [vA s p a]
      .ok (storeOps p (storeEa p l (srcB s f (wB p b))) (numLE (regV s (vA s p a))) s))
    (storeWith p 64 s))

/-! ## Stash windows -/

/-- The operands W[a] and W[b] of a MEM function (R136). -/
def memOperands (i : Instr) (s : State) (p : Pre) (a b : BitVec 4) : Res (Nat × Nat) := do
  names s [wA p a, wB p b] []
  let f ← forwarded i s (some (wB p b)) none
  reads s ([wA p a] ++ unreplaced f [wB p b] []) []
  .ok (regW s (wA p a), srcB s f (wB p b))

/-- Does a range meet a mapped window? -/
def meetsWin (c : Core) (lo n : Nat) : Bool :=
  c.wins.any (fun w => match w with | some w => meets lo n w.base w.len | none => false)

def mappedTotal (c : Core) : Nat := c.wins.foldl (fun n w => match w with | some w => n + w.len | none => n) 0

/-- `mem.smap` (R136, R137). -/
def execMemSmap (p : Pre) (a b : BitVec 4) (s : State) : Host.Outcome State Fault Refusal :=
  run s (do
    let i := Instr.memSmap p a b
    let x ← memOperands i s p a b
    let d := x.1
    let win := bits d 1 0
    let base := bits d 16 8 * 256
    let len := (bits d 31 24 + 1) * 256
    need8 (bits d 63 32 = 0 && bits d 23 17 = 0 && bits d 7 2 = 0 && (s.core.wins.getD win none).isNone && x.2 < 2 ^ 56) i
    need (x.2 % 256 = 0) cALIGN x.2
    need (base + len ≤ 0x1F000 && !meetsWin s.core base len && mappedTotal s.core + len ≤ 0x10000 &&
      !meetsWindow s base len) cLSPROT d
    if s.core.memQ != [] then stall .mem
    else if mxuNames s.core base len || copyNames s.core base len then stall (.engines base len)
    else .ok (retire p (updCore (fun c => { c with
      wins := mapAt (fun _ => some { base := base, len := len, va := x.2, shadow := secondary s }) win c.wins }) s)))

/-- The window that W[a] names: W[a][63:2] = 0 (R138). -/
def winOperand (i : Instr) (d : Nat) : Res Nat := do
  need8 (d < 4) i
  .ok d

/-- The sectors of the mapped windows that hold a byte of a range: window number and sector. -/
def rangeSectors (c : Core) (lo n : Nat) : List (Nat × Nat) :=
  (List.range 4).flatMap (fun i =>
    match c.wins.getD i none with
    | some w => ((List.range (w.len / 64)).filter (fun j => meets lo n (w.base + 64 * j) 64)).map (fun j => (i, j))
    | none => [])

def pasOf (s : State) (l : List (Nat × Nat)) : List Nat :=
  l.flatMap (fun x => match s.core.wins.getD x.1 none with | some w => sectorPas s w x.2 | none => [])

/-! MEM instructions of different contexts of a core take effect in the order in which they issue, also where one waits for its verdict
or for an acceptance (R140): `memQ` holds those that have begun. -/

/-- The issuing context's MEM instruction begins. -/
def enterMem (s : State) : State := updCore (fun c => { c with memQ := c.memQ ++ [c.cur] }) s

/-- It is over. -/
def leaveMem (s : State) : State := updCore (fun c => { c with memQ := c.memQ.filter (· != c.cur) }) s

/-- Has an earlier one of another context still to take effect? -/
def memBefore (h : Nat) (c : Core) : Bool := !(c.memQ.takeWhile (· != h)).isEmpty

/-- A MEM instruction that begins with a commit point (R140): the commit point in parts 0 and 1, then, after those that issued before it,
the write-backs of the committed dirty bytes of some sectors, the wait for their acceptance, and the effect on the windows (R138). Part 2 waits
for the others, part 3 for the acceptance. -/
def memParts (p : Pre) (sectors : State → List (Nat × Nat)) (effect : State → State) (s : State) : State :=
  let fin := fun (t : State) =>
    if (ctx t).wait = .leader then t else retire p (leaveMem t)
  let write := fun (t : State) =>
    let pas := pasOf t (sectors t)
    let u := if secondary t || pas.isEmpty then t else startBack false (fun d => pas.contains d.pa) t
    if !pas.isEmpty && backsOpen u then holdMid (block .accept (setStage 3 u)) else fin (effect u)
  let turn := fun (t : State) =>
    if memBefore t.core.cur t.core then holdMid (block .mem (setStage 2 t)) else write t
  if stageOf s ≤ 1 then
    withCommit 0 (after p) (if redundant s && stageOf s = 0 then enterMem s else s) (fun t => turn (if redundant t then t else enterMem t))
  else if stageOf s = 2 then turn s
  else if backsOpen s then block .accept s
  else fin (effect s)

/-- The window operand of SUNMAP and SCLOSE. -/
def winOps (i : Instr) (s : State) (p : Pre) (a : BitVec 4) : Res (List Nat) := do
  names s [wA p a] []
  let _ ← forwarded i s none none
  reads s [wA p a] []
  let n ← winOperand i (regW s (wA p a))
  .ok [n]

/-- `mem.sunmap` (R138). -/
def execMemSunmap (p : Pre) (a : BitVec 4) (s : State) : Host.Outcome State Fault Refusal :=
  run s (inParts s (winOps (.memSunmap p a) s p a) (fun o =>
    let n := o.getD 0 0
    let all := fun (t : State) => match t.core.wins.getD n none with
      | some w => (List.range (w.len / 64)).map (fun j => (n, j))
      | none => []
    .ok (memParts p all (fun t => updCore (fun c => { c with wins := mapAt (fun _ => none) n c.wins }) (tagsHeld n (fun _ _ => true) t)) s)))

/-- The range of SFLUSH and SINV (R138). -/
def flushRange (i : Instr) (s : State) (p : Pre) (a b : BitVec 4) : Res (List Nat) := do
  let x ← memOperands i s p a b
  need (x.2 = 0 || x.1 + x.2 ≤ 0x1F000) cLSPROT x.1
  .ok [x.1, x.2]

/-- `mem.sflush` (R138). -/
def execMemSflush (p : Pre) (a b : BitVec 4) (s : State) : Host.Outcome State Fault Refusal :=
  run s (inParts s (flushRange (.memSflush p a b) s p a b) (fun o =>
    .ok (memParts p (fun t => rangeSectors t.core (o.getD 0 0) (o.getD 1 0)) id s)))

/-- `mem.sinv` (R138). -/
def execMemSinv (p : Pre) (a b : BitVec 4) (s : State) : Host.Outcome State Fault Refusal :=
  run s (inParts s (flushRange (.memSinv p a b) s p a b) (fun o =>
    let l := fun (t : State) => rangeSectors t.core (o.getD 0 0) (o.getD 1 0)
    .ok (memParts p l (fun t => updCore (fun c => (l t).foldl (fun c y => updWin y.1 (invalidateSector y.2) c) c) t) s)))

/-- The local store after a window is closed: each byte of the range is its last contents or a value that it held earlier there (R138,
R7). -/
def closedLs (n : Nat) (w : Win) (ls : Memory) : Memory :=
  ((w.earlier.map (·.1)).eraseDups).foldl (fun m a =>
    let vs := memRead ls a :: (w.earlier.filter (fun e => e.1 == a)).map (·.2)
    memWrite m a (vs.getD (Config.whichValue n a % vs.length) 0)) ls

/-- Window n is unmapped at once. In PAIR and TRIAD modes every replica takes the bytes that the primary's range has then (R301, R304), and
bytes that other contexts have stored there in their open segments stay held by them (R140; notes/assumptions/76.md). -/
def closeWin (n : Nat) (s : State) : State :=
  match s.core.wins.getD n none with
  | none => s
  | some w =>
    let ls := closedLs s.freeCtr w s.core.ls
    match leaderRead s (fun t => (numLE (readBytes ls w.base w.len), t)) with
    | .error _ => block .leader (setStage 2 s)
    | .ok (v, t) =>
      updCore (fun c => { c with
        ls := if redundant s then writeBytes c.ls w.base (bytesLE v w.len) else ls
        wins := mapAt (fun _ => none) n c.wins }) (bump (tagsHeld n (fun _ _ => true) t))

/-- `mem.sclose` (R138): committed dirty bytes are already in the cluster cache. -/
def execMemSclose (p : Pre) (a : BitVec 4) (s : State) : Host.Outcome State Fault Refusal :=
  run s (inParts s (winOps (.memSclose p a) s p a) (fun o => .ok (memParts p (fun _ => []) (closeWin (o.getD 0 0)) s)))

/-! ## LSCLR -/

/-- Clear a range, journalled and recorded in PAIR and TRIAD modes (R139, R313). -/
def clearPart (lo n : Nat) (s : State) : State :=
  let t := if redundant s then
    noteStore 1 lo (List.replicate n 0) (setCtx (fun x => { x with
      journal := (doublewords lo n).map (fun d => (d, readBytes s.core.ls d 8)) ++ x.journal }) s) else s
  updCore (fun c => { c with ls := memClear c.ls lo n, poison := unmark lo n c.poison }) t

/-- The stage of a clear of which m parts are done and the next waits for its commit point; the one after follows the verdict. -/
def clearStage (m : Nat) : Nat := 16 + 2 * m

/-- Parts m and on of a clear, each a whole journal: one that does not fit makes an implicit commit point first (R313). -/
def clearParts (p : Pre) (lo n : Nat) : Nat → Nat → State → State
  | 0, _, s => retire p (leaveMem s)
  | fuel + 1, m, s =>
    if n ≤ 4096 * m then retire p (leaveMem s)
    else
      let k := min 4096 (n - 4096 * m)
      if 512 < (ctx s).journal.length + k / 8 then
        sendVote 0 id (setStage (clearStage m) (if s.core.memQ.contains s.core.cur then s else enterMem s))
      else clearParts p lo n fuel (m + 1) (clearPart (lo + 4096 * m) k s)

/-- LSCLR: at once in single mode, else in parts. -/
def clearFrom (p : Pre) (lo n : Nat) (s : State) : State :=
  if redundant s then clearParts p lo n (n / 4096 + 2) ((stageOf s - 16) / 2) s else retire p (clearPart lo n s)

/-- `mem.lsclr` (R138, R139). -/
def execMemLsclr (p : Pre) (a b : BitVec 4) (s : State) : Host.Outcome State Fault Refusal :=
  run s (inParts s (do
      let x ← memOperands (.memLsclr p a b) s p a b
      need (x.2 = 0 || x.1 + x.2 ≤ 0x1F000) cLSPROT x.1
      need (x.1 % 64 = 0) cALIGN x.1
      need (x.2 % 64 = 0) cALIGN x.2
      need (x.2 = 0 || !meetsWin s.core x.1 x.2) cLSPROT x.1
      .ok [x.1, x.2])
    (fun o =>
      let lo := o.getD 0 0
      let n := o.getD 1 0
      if n = 0 then .ok (retire p s)
      else if stageOf s = 0 && s.core.memQ != [] then stall .mem
      else if mxuNames s.core lo n then stall (.mxuBytes lo n)
      else .ok (clearFrom p lo n s)))

end Sys2Proof.Machine
end

