-- ==== Sys2Proof/Machine/Sysreg.lean ====
section
/-! DEFINITION. The system registers (R27, R28): `xfer.mfs` and `xfer.mts` (R128, R20, R26, R42). -/

namespace Sys2Proof.Machine

/-- A read of the package time: some nanoseconds have passed (R27). -/
def readTime (s : State) : Nat × State :=
  let t := s.pkg.time + BitVec.ofNat 64 (Config.elapsed s.freeCtr)
  (t.toNat, bump (updPkg (fun k => { k with time := t }) s))

/-- Fresh random bits (R27). -/
def readRand (s : State) : Nat × State := ((Config.freeWord s.freeCtr).toNat, bump s)

/-- MSTAT (R27): queued commands, one running, one that is not local. -/
def mstat (c : Core) : Nat :=
  (c.mxu.q.filter (fun e => !e.begun)).length % 16 + b2n (c.mxu.q.any (·.begun)) * 16 +
    b2n (c.mxu.q.any (fun e => e.linked || !mxuLocal 0 e.cmd)) * 32

/-- The value of system register n as of the issue (R128). A read of FLG does not count itself in the LA that it reads
(notes/assumptions/75.md). -/
def readSys (n : Nat) (s : State) : Res (Nat × State) :=
  let c := s.core
  let x := ctx s
  let own := fun (v : Nat) => (Except.ok (v, s) : Res (Nat × State))
  let act := fun (f : Act → Nat) (d : Nat) => match c.act with | some a => f a | none => d
  match n with
  | 0 => own x.pc.toNat
  | 1 => own x.wp.toNat
  | 2 => own (withLa (laOf x) (flgView s))
  | 3 => own (act (·.item) 0)
  | 4 => leaderRead s (fun s => (s.core.id, s))
  | 5 => leaderRead s readTime
  | 6 => leaderRead s readRand
  | 7 => own c.cur
  | 8 => leaderRead s (fun s => (s.core.actCount.toNat, s))
  | 9 => own x.modv.toNat
  | 10 => own (act (·.strm) 0xFFFF)
  | 11 | 12 | 13 | 14 => leaderRead s (fun s => ((s.core.chans.getD (n - 11) {}).chwp.toNat, s))
  | 15 => own c.tvec.toNat
  | 16 => own c.twp.toNat
  | 17 => own x.repst.toNat
  | 18 => own c.sleep.toNat
  | 19 => own (mstat c)
  | 20 => leaderRead s (fun s => (s.core.inbound.length % 128 + min s.core.spill.length 0xFFFF * 2 ^ 16, s))
  | 21 => own (act (·.redm) 0)
  | 22 => own (act (·.rplc) 0)
  | 23 => own c.qstat.toNat
  | 24 => own c.fpst.toNat
  | 25 => own (coreInst s).gen
  | 26 => own (act (·.inst) 0)
  | _ => own (act (·.actlim) 0)

/-- The number of the system register in field b (R128). -/
def sysNum (p : Pre) (b : BitVec 4) : Nat := wB p b

/-- `xfer.mfs` (R128). -/
def execXferMfs (p : Pre) (a b : BitVec 4) (s : State) : Host.Outcome State Fault Refusal :=
  run s (do
    let i := Instr.xferMfs p a b
    names s [wA p a] []
    let _ ← forwarded i s none none
    need8 (sysNum p b < 28) i
    let r ← readSys (sysNum p b) s
    .ok (retire p (setW (wA p a) r.1 r.2)))

/-- Write system register n with x, with the checks of each register; the state is the one after the instruction for every
register but WP and REPST, which act from the next instruction on (R21, R42). A REPST written by the last instruction of a body stands as
written: no pass ends there (notes/assumptions/89.md). -/
def writeSys (i : Instr) (n x : Nat) (s : State) : Res State :=
  let w := BitVec.ofNat 64 x
  match n with
  | 1 => do
    checkWp s x
    .ok (setCtx (fun y => { y with wp := w }) (retire (preOf i) s))
  | 2 => do
    need8 (flgLegal x) i
    .ok (retire (preOf i) (setCtx (fun y => { y with flg := flgWritten x }) s))
  | 15 => do
    need (x % 2 = 0) cALIGN x
    .ok (retire (preOf i) (updCore (fun c => { c with tvec := w }) s))
  | 16 => do
    checkWp s x
    .ok (retire (preOf i) (updCore (fun c => { c with twp := w }) s))
  | 17 =>
    .ok (setCtx (fun y => { y with repst := w &&& 0xFFFFFFFF7FFFFFFE }) (goTo (nextPc (preOf i) s) s))
  | 18 => do
    need8 (x < 3) i
    .ok (retire (preOf i) (updCore (fun c => { c with sleep := w }) s))
  | 23 => .ok (retire (preOf i) (updCore (fun c => { c with qstat := c.qstat &&& ~~~(w &&& 3) }) s))
  | 24 => .ok (retire (preOf i) (updCore (fun c => { c with fpst := c.fpst &&& ~~~(w &&& 31) }) s))
  | _ => trap cILL (illValue 8 i)

/-- `xfer.mts` (R128): WP, FLG and REPST wait for outstanding long results (R33). -/
def execXferMts (p : Pre) (a b : BitVec 4) (s : State) : Host.Outcome State Fault Refusal :=
  let n := sysNum p b
  let body := fun (s : State) => (do
    let i := Instr.xferMts p a b
    names s [wA p a] []
    let _ ← forwarded i s none none
    reads s [wA p a] []
    writeSys i n (regW s (wA p a)) s : Res State)
  if n = 1 ∨ n = 2 ∨ n = 17 then runFlushed s body else run s (body s)

end Sys2Proof.Machine
end

