-- ==== Sys2Proof/Machine/Message.lean ====
section
/-! DEFINITION. SEND messages, replies, arms and counter adds (R181 to R194), counter reads and waits (R195, R196), helpers and
gangs (R209 to R211), `long.sopen` (R216), `xfer.iinv` (R129). -/

namespace Sys2Proof.Machine

/-! ## Operand groups (R181) -/

/-- The registers from n upward, the first of them as given. -/
def group (s : State) (n : Nat) (first : Nat) : Nat → List Nat
  | 0 => []
  | k + 1 => first :: (List.range k).map (fun i => regW s (n + 1 + i))

/-- The x group and the y group of a function of this chapter; `dst` holds the numbers that it writes. -/
def groups (i : Instr) (s : State) (p : Pre) (a b : BitVec 4) (dst : List Nat) (nx ny : Nat) : Res (List Nat × List Nat) := do
  let x := match p.reg with | some _ => wB p b | none => wA p a
  let y := match p.reg with | some _ => cNum p | none => wB p b
  names s (dst ++ (List.range nx).map (x + ·) ++ (List.range ny).map (y + ·)) []
  let rest := (List.range (nx - 1)).map (x + 1 + ·) ++ (List.range (ny - 1)).map (y + 1 + ·)
  match p.reg with
  | some _ => do
    let f ← forwarded i s (some x) (some y)
    reads s (unreplaced f [x] [y] ++ rest) []
    .ok (group s x (srcB s f x) nx, group s y (srcC s f y) ny)
  | none => do
    let f ← forwarded i s (some y) none
    reads s ([x] ++ unreplaced f [y] [] ++ rest) []
    .ok (group s x (regW s x) nx, group s y (srcB s f y) ny)

/-! ## Destinations (R185 to R187) -/

def dSlot (d : Nat) : Nat := bits d 63 54
def dVq (d : Nat) : Nat := bits d 53 52
def dPri (d : Nat) : Nat := bits d 51 50
def dMode (d : Nat) : Nat := bits d 49 48
def dType (d : Nat) : Nat := bits d 47 38
def dAux (d : Nat) : Nat := bits d 31 16
def dCore (d : Nat) : Nat := bits d 13 0

/-- The checks of a descriptor (R185); `q` for `send.qmsg`, which ignores VQ and AUX (R190); `modes` are the modes accepted. -/
def descOk (q : Bool) (modes : List Nat) (d : Nat) : Bool :=
  modes.contains (dMode d) && bits d 37 32 = 0 && bits d 15 14 = 0 && dPri d != 3 &&
  (q || (dVq d != 3 && (dMode d == 2 || (bits d 31 20 = 0 && (dVq d == 2 || bits d 19 16 = 0))))) &&
  (dMode d != 2 || (dVq d == 0 && dType d == 0)) && (dMode d == 0 || dCore d == 0)

/-- The hash of R187. -/
def ownerIndex (t0 n : Nat) : Nat :=
  if n ≤ 1 then 0 else (t0 * 0x9E3779B97F4A7C15 % 2 ^ 64) / (2 ^ 64 / n)

/-- The slot of a descriptor when every check of R186 passes. -/
def slotOf (s : State) (d : Nat) : Option Slot :=
  match look (dSlot d) s.core.slots with
  | some x =>
    if x.asid != asidOf s then none
    else match dMode d with
      | 0 => if x.placement.contains (dCore d) then some x else none
      | 1 => if x.owners.isEmpty then none else some x
      | _ => if x.stages.any (fun g => g.1 == dAux d) then some x else none
  | none => none

/-- Messages held in the open segments of the activation (R182). -/
def heldMessages (s : State) : Nat :=
  ((heldNow s).filter (fun e => match e.out with | .msg _ | .reply _ | .arm _ _ _ => true | _ => false)).length

/-- The held-count check (R182). -/
def checkHeld (s : State) : Res Unit := need (heldMessages s < 64) cOUTFULL 64

/-- The message of a descriptor that has passed its checks (R187, R190). -/
def buildMsg (s : State) (q : Bool) (x : Slot) (d t0 t1 : Nat) : Msg :=
  let vq := if q || dMode d = 2 then 0 else dVq d
  let vt := if vq = 1 then (ctx s).modv.toNat % 16 else if vq = 2 then bits d 19 16 else 0
  let st := x.stages.find? (fun g => g.1 == dAux d)
  let core := match dMode d with
    | 0 => dCore d
    | 1 => x.owners.getD (ownerIndex t0 x.owners.length) 0
    | _ => match st with | some g => g.2.2 | none => 0
  let type := if dMode d = 2 then (match st with | some g => g.2.1 | none => 0) else dType d
  { hdr := mkHdr 0 core x.pkg x.inst type vq (coreInst s).gen (dPri d) vt, t0 := BitVec.ofNat 64 t0, t1 := BitVec.ofNat 64 t1,
    strm := if dMode d = 2 then some (dAux d) else none }

/-- The records of a message (R305). -/
def noteMsg (m : Msg) (s : State) : State :=
  note 0x11 16 0 0 (m.t0.toNat + m.t1.toNat * 2 ^ 64) (note 0x10 16 0 0 m.hdr.toNat s)

/-- `send.msg`, `send.qmsg` and `send.item` (R190). -/
def send (i : Instr) (q : Bool) (modes : List Nat) (p : Pre) (a b : BitVec 4) (s : State) : Host.Outcome State Fault Refusal :=
  run s (do
    let g ← groups i s p a b [] 1 2
    let d := g.1.getD 0 0
    need8 (descOk q modes d) i
    match slotOf s d with
    | none => trap cPRIV d
    | some x => do
      checkHeld s
      let m := buildMsg s q x d (g.2.getD 0 0) (g.2.getD 1 0)
      .ok (retire p (noteMsg m (hold (.msg m) s))))

/-- `send.msg` (R190). -/
def execSendMsg (p : Pre) (a b l : BitVec 4) (s : State) : Host.Outcome State Fault Refusal :=
  send (.sendMsg p a b l) false [0, 1] p a b s

/-- `send.qmsg` (R190). -/
def execSendQmsg (p : Pre) (a b l : BitVec 4) (s : State) : Host.Outcome State Fault Refusal :=
  send (.sendQmsg p a b l) true [0, 1] p a b s

/-- `send.item` (R190). -/
def execSendItem (p : Pre) (a b l : BitVec 4) (s : State) : Host.Outcome State Fault Refusal :=
  send (.sendItem p a b l) false [2] p a b s

/-- `send.reply` (R190, R192). -/
def execSendReply (p : Pre) (a b l : BitVec 4) (s : State) : Host.Outcome State Fault Refusal :=
  run s (do
    let i := Instr.sendReply p a b l
    let g ← groups i s p a b [] 1 2
    let x := g.1.getD 0 0
    let t0 := BitVec.ofNat 64 (g.2.getD 0 0)
    let t1 := BitVec.ofNat 64 (g.2.getD 1 0)
    match s.core.act with
    | none => trap cILL (illValue 8 i)
    | some act => do
      need8 (x < 2 ^ 12 && bits x 11 10 != 3 && !act.replied && !act.klogar) i
      checkHeld s
      let m : Msg := { hdr := mkHdr 0 (hCore act.trig.hdr) (hPkg act.trig.hdr) (hInst act.trig.hdr) (bits x 9 0) 0
                         (coreInst s).gen (bits x 11 10) 0, t0 := t0, t1 := t1 }
      let o := if act.trig.req.isSome then Output.reply m else .msg m
      .ok (retire p (noteMsg m (updAct (fun y => { y with replied := true, replySeg := some s.core.cur }) (hold o s)))))

/-- `send.arm` (R193). -/
def execSendArm (p : Pre) (a b l : BitVec 4) (s : State) : Host.Outcome State Fault Refusal :=
  run s (do
    let i := Instr.sendArm p a b l
    let g ← groups i s p a b [] 2 3
    let va := g.1.getD 0 0
    let th := g.1.getD 1 0
    let d := g.2.getD 0 0
    checkCtr s (asidOf s) va
    need8 (descOk false [0, 1] d) i
    match slotOf s d with
    | none => trap cPRIV d
    | some x => do
      checkHeld s
      let m := buildMsg s false x d (g.2.getD 1 0) (g.2.getD 2 0)
      .ok (retire p (noteMsg m (note 0x12 8 0 va th (hold (.arm va th m) s)))))

/-! ## Counters (R194 to R196) -/

/-- `send.cadd` (R194): the add belongs to the segment that commits. -/
def execSendCadd (p : Pre) (a b l : BitVec 4) (s : State) : Host.Outcome State Fault Refusal :=
  run s (inParts s (do
    let g ← groups (.sendCadd p a b l) s p a b [] 1 1
    let va := g.1.getD 0 0
    let inc := g.2.getD 0 0
    checkCtr s (asidOf s) va
    .ok [va, inc]) (fun l =>
      let va := l.getD 0 0
      let inc := l.getD 1 0
      let t := if stageOf s = 0 then note 0x20 8 0 va inc (hold (.add va inc) s) else s
      .ok (withCommit 0 (after p) t (retire p))))

/-- The value of a counter as the issuing core reads it: its own earlier adds have taken effect (R287). -/
def counterValue (va : Nat) (s : State) : Nat × State :=
  let t := drainAdds s.core.id (asidOf s) va s
  (ctrVal t (asidOf s) va, t)

/-- One add by the issuing core, applied at once, with the value before it; 0 when the page has been freed (R194, R420). -/
def fetchAdd (va inc : Nat) (s : State) : Nat × State :=
  let k := s.core.id
  let asid := asidOf s
  let t := flushNow (fun d => inSet k (ctrScope s asid va) d.die) (drainAdds k asid va s)
  let old := if (ctrPage t asid va).isSome then ctrVal t asid va else 0
  (old, applyAdd { asid := asid, va := va, inc := inc, core := k, inst := actInst s, stamp := s.core.actCount.toNat } t)

/-- A long result in a w register. -/
def longW (la : BitVec 4) (n v : Nat) (s : State) : State :=
  pushLong la.toNat { addr := wAddr s n, bytes := bytesLE v 8, flags := none, left := 0 } s

/-- The snapshot of the commit point was taken before the result was known: there it is outstanding (R24, R311). -/
def keepInSnap (la : BitVec 4) (n v : Nat) (s : State) : State :=
  setCtx (fun x => { x with snapLongs := x.snapLongs ++ [{ addr := wAddr s n, bytes := bytesLE v 8, flags := none, left := la.toNat }] }) s

/-- `send.caddr` (R194). -/
def execSendCaddr (p : Pre) (a b l : BitVec 4) (s : State) : Host.Outcome State Fault Refusal :=
  let s := longRoom s
  run s (inParts s (do
    let g ← groups (.sendCaddr p a b l) s p a b [wA p a] 1 1
    let va := g.1.getD 0 0
    let inc := g.2.getD 0 0
    checkCtr s (asidOf s) va
    readableCtr s (asidOf s) va
    .ok [va, inc]) (fun o => do
      let va := o.getD 0 0
      let inc := o.getD 1 0
      if (redundant s || badHeld s) && stageOf s == 0 then .ok (withCommit 0 (after p) (note 0x20 8 0 va inc s) id)
      else if let (0, some w) := (stageOf s, nxtStall (after p) s) then .ok (block w s)
      else do
        let t := if stageOf s = 0 then commitSeg (after p) s else s
        let r ← leaderRead t (fetchAdd va inc)
        .ok (retire p (longW l (wA p a) r.1 (keepInSnap l (wA p a) r.1 r.2)))))

/-- `long.cread` (R195). -/
def execLongCread (p : Pre) (a b l : BitVec 4) (s : State) : Host.Outcome State Fault Refusal :=
  run s (do
    let s := longRoom s
    let va ← oneSrc (.longCread p a b l) s p a b
    checkCtr s (asidOf s) va
    readableCtr s (asidOf s) va
    let r ← leaderRead s (counterValue va)
    acquire (ctrScope s (asidOf s) va) (retire p (longW l (wA p a) r.1 r.2)))

/-- `long.ctest` (R195). -/
def execLongCtest (p : Pre) (a b l : BitVec 4) (s : State) : Host.Outcome State Fault Refusal :=
  run s (do
    let s := longRoom s
    let g ← groups (.longCtest p a b l) s p a b [] 1 1
    let va := g.1.getD 0 0
    checkCtr s (asidOf s) va
    readableCtr s (asidOf s) va
    let r ← leaderRead s (counterValue va)
    acquire (ctrScope s (asidOf s) va)
      (retire p (pushLong l.toNat { addr := 0, bytes := [], flags := some (cmpFlags r.1 (g.2.getD 0 0)), left := 0 } r.2)))

/-- The counter store takes a waiter while its register has room (R288). -/
def addWaiter (va th : Nat) (s : State) : State :=
  let asid := asidOf s
  let home := match ctrPage s asid va with | some p => p.home | none => 0
  let mine := fun (w : Waiter) => w.core == s.core.id && w.ctx == s.core.cur
  let there := (s.pkg.waiters.filter (fun w => match ctrPage s w.asid w.va with | some p => p.home == home | none => false)).length
  if s.pkg.waiters.any mine || 1024 ≤ there then s
  else updPkg (fun k => { k with waiters := k.waiters ++ [⟨s.core.id, s.core.cur, asid, va, th⟩] }) s

/-- `long.cwait` (R196). -/
def execLongCwait (p : Pre) (a b : BitVec 4) (s : State) : Host.Outcome State Fault Refusal :=
  run s (do
    let g ← groups (.longCwait p a b) s p a b [wA p a] 1 1
    let va := g.1.getD 0 0
    let th := g.2.getD 0 0
    checkCtr s (asidOf s) va
    readableCtr s (asidOf s) va
    let t := drainAdds s.core.id (asidOf s) va s
    if !secondary s && ctrVal t (asidOf s) va < th then .ok (block (.cwait va th) (addWaiter va th t))
    else do
      let r ← leaderRead s (counterValue va)
      acquire (ctrScope s (asidOf s) va) (retire p (setW (wA p a) r.1 (dropWaiters s.core.cur r.2))))

/-- `long.wpwait` (R196, R302). A secondary takes the value that the primary has observed, whatever its own write pointer is by then: the
sectors that it covers have landed there too. -/
def execLongWpwait (p : Pre) (a b : BitVec 4) (s : State) : Host.Outcome State Fault Refusal :=
  run s (do
    let i := Instr.longWpwait p a b
    let g ← groups i s p a b [wA p a] 1 1
    let ch := g.1.getD 0 0
    let th := g.2.getD 0 0
    need8 (ch < 4) i
    let now := (s.core.chans.getD ch {}).chwp.toNat
    if !secondary s && now < th then stall (.wpwait ch th)
    else do
      let r ← leaderRead s (fun s => (now, s))
      .ok (retire p (setW (wA p a) r.1 r.2)))

/-! ## Helpers and gangs -/

/-- The lowest helper number that is not live (R209). -/
def freeHelper (s : State) : Option Nat := firstFree (fun h => (ctxAt s h).live) 1 10

/-- `xfer.start` (R209). -/
def execXferStart (p : Pre) (a b : BitVec 4) (s : State) : Host.Outcome State Fault Refusal :=
  run s (inParts s (do
    let x ← twoSrc (.xferStart p a b) s p a b
    need (x.1 % 2 = 0) cALIGN x.1
    checkWp s x.2
    .ok [x.1, x.2])
    (fun l => match freeHelper s with
      | none => .error (.latched .slot l)
      | some h =>
        let pc := BitVec.ofNat 64 (l.getD 0 0)
        let wp := BitVec.ofNat 64 (l.getD 1 0)
        let c : Ctx := { live := true, pc := pc, wp := wp, flg := flgReset, firstSeg := true, startPc := pc, startWp := wp
                         modv := BitVec.ofNat 16 (match s.core.act with | some a => a.vtag | none => 0) }
        .ok (retire p (setW (wA p a) h (setCtxAt h (fun _ => c) s)))))

/-- Is the wait of `xfer.joinh` for h over (R210)? -/
def joined (s : State) (me h : Nat) : Bool :=
  if h = 0 then (List.range 11).all (fun j => j == 0 || j == me || !(ctxAt s j).live) else !(ctxAt s h).live

/-- `xfer.joinh` (R210). It issues again when its wait ends, as START and END do, and an asynchronous cause that has come meanwhile is
taken at that issue, with its own address (R220; notes/assumptions/93.md). -/
def execXferJoinh (p : Pre) (b : BitVec 4) (s : State) : Host.Outcome State Fault Refusal :=
  run s (do
    let h ← oneSrcNoDst (.xferJoinh p b) s p b
    need8 (h ≤ 10 && !(h != 0 && h == s.core.cur)) (.xferJoinh p b)
    if joined s s.core.cur h then .ok (retire p s) else stall (.joinh h))

/-- The cores of a cluster that a mask names (R211). -/
def maskCores (k : Nat) (mask : Nat) : List Nat :=
  ((List.range 16).filter (fun i => bit mask i)).map (fun i => 16 * clusterOf k + i)

/-- The CPL of a member that has waited is done: what follows its chain is next, in a bellows body the next body instruction. -/
def pastCpl (s : State) : State :=
  let t := retire {} s
  match skipChains s (asidOf s) 1 (start s) with
  | .ok a => if (ctx t).pc = BitVec.ofNat 64 (nextPc {} s) then setCtx (fun x => { x with pc := BitVec.ofNat 64 a }) t else t
  | .error _ => t

/-- `xfer.cpl` (R211, R231): part 0 arrives; the last arrival couples every member, which goes on after the leader's CPL. -/
def execXferCpl (p : Pre) (b : BitVec 4) (s : State) : Host.Outcome State Fault Refusal :=
  run s (do
    let i := Instr.xferCpl p b
    let d ← oneSrcNoDst i s p b
    let mask := bits d 15 0
    let tag := bits d 31 16
    let k := s.core.id
    let ms := maskCores k mask
    need8 (d < 2 ^ 32 && bit mask (k % 16) && 2 ≤ ms.length && s.core.cur = 0 && !redundant s) i
    let others := ms.filter (· != k)
    let clash := (List.range 16).any (fun j =>
      let c := coreOf s (16 * clusterOf k + j)
      c.id != k && (match c.gang with
        | .arrived m t => (m.toNat &&& mask) != 0 && (m.toNat != mask || t.toNat != tag)
        | _ => false))
    need8 (!clash) i
    need (others.all (fun j => match (coreOf s j).act with
      | some a => a.inst == actInst s
      | none => (match (coreOf s j).resident with | some x => x == actInst s | none => true))) cPRIV d
    let m16 := BitVec.ofNat 16 mask
    let t16 := BitVec.ofNat 16 tag
    if others.all (fun j => (coreOf s j).gang == .arrived m16 t16) then
      let lead := ms.foldl min k
      let t := others.foldl (fun t j => withCore j t (fun u => asCtx 0 u pastCpl)) (retire p s)
      let next := ((coreOf t lead).ctxs.getD 0 {}).pc
      let join := fun (c : Core) => { c with
        gang := Gang.coupled m16 t16
        ctxs := mapAt (fun x => { x with wait := .none, stage := 0, pc := next }) 0 c.ctxs }
      .ok (updCore join (others.foldl (fun t j => setCore j (join (coreOf t j)) t) t))
    else match nxtStall (retire p) s with
      | some w => .ok (block w s)
      | none => .ok (block .cpl (updCore (fun c => { c with gang := .arrived m16 t16 }) s)))

/-! ## State objects (R215, R216) -/

/-- The version whose code runs (R27 no. 9, R216): for code of a library the one that MODV names (R375). -/
def runningVersion (s : State) : Option Version :=
  match versionAt s (start s) with
  | some v => some v
  | none => versionOf s (ctx s).modv.toNat

/-- The tag of a state type in a version. -/
def stateTag (v : Version) (t : Nat) : Option Nat := (v.states.find? (fun x => x.1 == t)).map (fun x => x.2.1)

/-- The header of a state object, with its checks (R216). -/
def objHeader (i : Instr) (s : State) (h : Nat) : Res Nat := do
  need (h % 8 = 0) cALIGN h
  need (h + 7 ≤ 0x1EFFF) cLSPROT h
  awaitBytes s h 8
  readable s h 8
  let d := numLE (loadBytes s h 8)
  need8 (bits d 62 49 = 0 && (bit d 63 || bits d 48 32 = 0)) i
  .ok d

/-- `long.sopen` (R216). -/
def execLongSopen (p : Pre) (a b l : BitVec 4) (s : State) : Host.Outcome State Fault Refusal :=
  run s (do
    let s := longRoom s
    let i := Instr.longSopen p a b l
    let h0 ← oneSrc i s p a b
    let d0 ← objHeader i s h0
    let h := if bit d0 63 then bits d0 48 32 else h0
    let d ← if bit d0 63 then objHeader i s h else .ok d0
    need8 (!bit d 63) i
    match runningVersion s with
    | none => trap cILL (illValue 8 i)
    | some v =>
      let ci := coreInst s
      let ty := bits d 31 16
      let tag := bits d 15 0
      let other := fun (o : Option Nat) => match o with
        | some t => match versionOf s t with | some w => stateTag w ty | none => none
        | none => none
      match v.states.find? (fun x => x.1 == ty) with
      | none => trap cILL (illValue 8 i)
      | some (_, t, conv) =>
        if tag = t then .ok (retire p (longW l (wA p a) (h + 8) s))
        else if ci.newest = some v.tag then
          match conv with
          | some (prev, c) => if tag = prev then .error (.rennet h c v.gp) else trap cILL (illValue 8 i)
          | none => trap cILL (illValue 8 i)
        else if ci.previous = some v.tag ∧ other ci.newest = some tag then .error (.straggler (start s))
        else trap cILL (illValue 8 i))

/-! ## IINV -/

/-- `xfer.iinv` (R129): words of the range leave the instruction caches of every core of the cluster. -/
def execXferIinv (p : Pre) (a b : BitVec 4) (s : State) : Host.Outcome State Fault Refusal :=
  run s (do
    let i := Instr.xferIinv p a b
    names s [wA p a, wB p b] []
    let f ← forwarded i s (some (wB p b)) none
    reads s ([wA p a] ++ unreplaced f [wB p b] []) []
    let lo := regW s (wA p a)
    let n := srcB s f (wB p b)
    need8 (lo < 2 ^ 56) i
    let asid := asidOf s
    let cl := clusterOf s.core.id
    let clear := fun (c : Core) => { c with icache := c.icache.filter (fun e =>
      !(0x100000 < n || (n != 0 && e.1 == asid && meets e.2.1 2 lo n))) }
    .ok (retire p { s with
      core := clear s.core
      others := s.others.map (fun o => if clusterOf o.1 == cl then (o.1, clear o.2) else o) }))

end Sys2Proof.Machine
end

