-- ==== Sys2Proof/Machine/Push.lean ====
section
/-! DEFINITION. Pushes of copy commands (R199 to R201) and of storage commands (R204 to R206). -/

namespace Sys2Proof.Machine

/-- The address checks of a push (R198). -/
def checkPush (s : State) (ea : Nat) : Res Unit := do
  need (ea % 64 = 0) cALIGN ea
  need (ea + 63 ≤ 0x1EFFF) cLSPROT ea
  awaitBytes s ea 64
  readable s ea 64

/-- The 64-byte command at a local store address. -/
def cmdAt (s : State) (ea : Nat) : Cmd := BitVec.ofNat 512 (numLE (readBytes (lsView s) ea 64))

/-- A CHFAULT value (R203). -/
def chValue (eng run pos op : Nat) : Nat := eng * 2 ^ 17 + run * 2 ^ 16 + pos % 256 * 2 ^ 8 + op % 256

/-- The lowest offset whose check fails. -/
def rejected (checks : List (Nat × Bool)) : Option Nat := (checks.find? (fun c => !c.2)).map (·.1)

/-- Does a counter address pass R183; on another package only its alignment (R201)? -/
def ctrOk (s : State) (remote : Bool) (va : Nat) : Bool :=
  va % 8 = 0 && (remote || (ctrPage s (asidOf s) va).isSome)

/-- The checks of a copy command in the order of the byte offsets of its fields (R200, R201). -/
def copyChecks (s : State) (ch : Chan) (c : Cmd) : List (Nat × Bool) :=
  let x := c.toNat
  let op := bits x 7 0
  let z := fun hi lo => decide (bits x hi lo = 0)
  let out := bit x 8
  let csig := op == 4
  let fill := op == 3
  let c2 := op == 2
  let sectr := bit x 10
  let rpk := bit x 11
  let ctr := csig || sectr
  let useG := !csig && !(fill && !out)
  let useL := !csig && !(fill && out)
  let lsa := bits x 95 64
  let len := bits x 127 96
  let rows := bits x 255 224
  let last := if c2 then lsa + (rows - 1) * bits x 223 192 + len else lsa + len
  [(0, 1 ≤ op && op ≤ 4),
   (1, z 15 12 && (!csig || z 10 8) && !(out && bit x 9) && !(rpk && fill && !out) && (csig || out || bit x 9 || ch.isOpen)),
   (2, rpk || z 27 16), (3, z 63 28),
   (8, if useL then lsa % 64 == 0 && last ≤ 0x1F000 else z 95 64),
   (12, if csig then z 127 96 else len % 64 == 0 && len != 0),
   (16, if useG then bits x 191 128 % 64 == 0 && z 191 184 else z 191 128),
   (24, if c2 then bits x 223 192 % 64 == 0 && len ≤ bits x 223 192 else z 223 192),
   (28, if c2 then rows != 0 else z 255 224),
   (32, if c2 then bits x 319 256 % 64 == 0 else z 319 256),
   (40, if ctr then ctrOk s (rpk && (csig || out)) (bits x 383 320) else z 383 320),
   (48, csig || z 447 384), (56, fill || z 511 448)]

/-- The event records of a push (R305). -/
def notePush (kind addr : Nat) (c : Cmd) (s : State) : State :=
  (List.range 4).foldl (fun t i => note kind 16 i addr (bits c.toNat (128 * i + 127) (128 * i)) t) s

/-! ## The ranges of copy and storage commands (R200, R205, R207) -/

/-- Is a command inbound (R200)? -/
def copyInbound (c : Cmd) : Bool := fld c 7 0 != 4 && !c.toNat.testBit 8
/-- Does its global range lie on another package, and which one? -/
def copyRemote (c : Cmd) : Option Nat := if c.toNat.testBit 11 then some (fld c 27 16) else none

def copyRows (c : Cmd) : Nat := if fld c 7 0 = 2 then fld c 255 224 else 1
/-- Sectors of a command. -/
def copySectors (c : Cmd) : Nat := copyRows c * (fld c 127 96 / 64)
/-- Row and byte within the row of sector i. -/
def copyPlace (c : Cmd) (i : Nat) : Nat × Nat := let n := max (fld c 127 96 / 64) 1; (i / n, 64 * (i % n))
/-- The local store and the global address of sector i. -/
def copyLs (c : Cmd) (i : Nat) : Nat := let p := copyPlace c i; fld c 95 64 + p.1 * fld c 223 192 + p.2
def copyVa (c : Cmd) (i : Nat) : Nat := let p := copyPlace c i; fld c 191 128 + p.1 * fld c 319 256 + p.2

def stoOp (e : StoCmd) : Nat := fld e.cmd 7 0
def stoCk (e : StoCmd) : Nat := fld e.cmd 9 8
def stoDk (e : StoCmd) : Nat := fld e.cmd 11 10
def stoBuf (e : StoCmd) : Nat := fld e.cmd 255 192
def stoDict (e : StoCmd) : Nat := fld e.cmd 511 448

/-- The namespace of an NVMe command (R207). -/
def namespaceOf (s : State) (e : StoCmd) : Option Namespace :=
  match look (fld e.cmd 25 16) s.pkg.qps with
  | some q => s.pkg.spaces.find? (fun x => x.dev == q.dev && x.nsid == fld e.cmd 63 32)
  | none => none

/-- The byte address of a command's first block, and its length in bytes, on a namespace. -/
def blockSpan (x : Namespace) (e : StoCmd) : Nat × Nat := (fld e.cmd 127 64 * x.lba, (fld e.cmd 143 128 + 1) * x.lba)

/-- Do the blocks of a command exist? -/
def blocksExist (x : Namespace) (e : StoCmd) : Bool := fld e.cmd 127 64 + fld e.cmd 143 128 + 1 ≤ x.blocks

/-- The global range that a command writes (NRD, ZDEC), and the one it reads (NWR, ZDEC, CSUM). -/
def stoOut (s : State) (e : StoCmd) : Nat × Nat :=
  let n := if stoDk e != 0 then fld e.cmd 191 160
    else match namespaceOf s e with | some x => (blockSpan x e).2 | none => 0
  (stoBuf e, n)
def stoIn (s : State) (e : StoCmd) : Nat × Nat :=
  if stoOp e = 2 then (stoBuf e, match namespaceOf s e with | some x => (blockSpan x e).2 | none => 0)
  else (fld e.cmd 127 64, fld e.cmd 159 128)
def stoStat (e : StoCmd) : Nat := fld e.cmd 319 256
/-- The dictionary: up to 64 KiB at DICT (R207). The command gives no length (notes/assumptions/35.md). -/
def stoDictSpan (e : StoCmd) : Nat × Nat :=
  (stoDict e, if stoDict e = 0 then 0 else min (max (Config.dictBytes e.stamp (stoDict e)) 1) 65536)

/-- The narrowest scope that contains the pushing core and the homes of a range of global bytes (R252, R266). -/
def rangeScope (s : State) (asid va n : Nat) : Nat :=
  let ps := (List.range ((va % 4096 + n + 4095) / 4096)).map (fun i => findPage s asid (va / 4096 * 4096 + 4096 * i))
  if n = 0 then 0
  else if ps.any (fun p => (p.bind (·.remote)).isSome) then 4
  else if ps.all (fun p => (p.map (·.die)) == some (dieOf s.core.id)) then 2 else 3

/-- The scope of the release that a copy push makes (R266). -/
def copyScope (s : State) (c : Cmd) : Nat :=
  let asid := asidOf s
  let op := fld c 7 0
  let bytes := (List.range (copyRows c)).foldl (fun m i => max m (rangeScope s asid (fld c 191 128 + i * fld c 319 256) (fld c 127 96))) 0
  let ctr := if op = 4 || c.toNat.testBit 10 then ctrScope s asid (fld c 383 320) else 0
  if (copyRemote c).isSome then 4 else if op = 4 || (op = 3 && copyInbound c) then ctr else max bytes ctr

/-- The scope of the release that a storage push makes (R266). -/
def storageScope (s : State) (e : StoCmd) : Nat :=
  let op := stoOp e
  let i := stoIn s e
  let o := stoOut s e
  [if op = 2 || 4 ≤ op then rangeScope s e.asid i.1 i.2 else 0, if op = 1 || op = 4 then rangeScope s e.asid o.1 o.2 else 0,
   rangeScope s e.asid (stoDictSpan e).1 (stoDictSpan e).2, rangeScope s e.asid (stoStat e) 16,
   ctrScope s e.asid (fld e.cmd 383 320)].foldl max 0

/-- A push is a release of the pusher's earlier stores, which takes effect when its segment commits (R199, R204, R266). -/
def pushRelease (scope : Nat) (s : State) : State := updCore (fun c => { c with pushRel := c.pushRel ++ [(s.core.cur, scope)] }) s

/-- `send.cpush` (R199). The command that runs counts among the four that a full channel holds (notes/assumptions/81.md). -/
def execSendCpush (p : Pre) (a b l : BitVec 4) (s : State) : Host.Outcome State Fault Refusal :=
  run s (inParts s (do
    let i := Instr.sendCpush p a b l
    let g ← groups i s p a b [] 1 1
    let ea := g.1.getD 0 0
    let n := g.2.getD 0 0
    need8 (n < 4) i
    checkPush s ea
    let c := cmdAt s ea
    match rejected (copyChecks s (s.core.chans.getD n {}) c) with
    | some w => trap cCHFAULT (chValue 0 0 w (bits c.toNat 7 0))
    | none => .ok [n, c.toNat])
    (fun l =>
      let n := l.getD 0 0
      let c : Cmd := BitVec.ofNat 512 (l.getD 1 0)
      if 4 ≤ (s.core.chans.getD n {}).q.length then .error (.latched (.chanRoom n) l)
      else
        let inbound := !bit c.toNat 8 && bits c.toNat 7 0 != 4
        let e : CopyCmd := { cmd := c, ctx := s.core.cur, inst := actInst s, stamp := s.core.actCount.toNat, seq := s.core.sent
                             seconds := if redundant s && !secondary s then (groupOf s).filter (· != s.core.id) else [] }
        let t := if secondary s && inbound then
            updCore (fun k => { k with chans := mapAt (fun ch => { ch with isOpen := ch.isOpen || bit c.toNat 9 }) n k.chans }) s
          else updCore (fun k => { k with sent := k.sent + 1, chans := mapAt (fun ch => { ch with
            isOpen := ch.isOpen || (inbound && bit c.toNat 9), q := ch.q ++ [e] }) n k.chans }) s
        let u := if redundant s && inbound then updCore (fun k => { k with sent := s.core.sent + 1, inPushes := k.inPushes ++ [(n, e)] }) t else t
        .ok (retire p (notePush 0x31 n c (pushRelease (copyScope s c) u)))))

/-- The checks of a storage command in the order of the byte offsets of its fields (R205, R206). -/
def storageChecks (s : State) (c : Cmd) : List (Nat × Bool) :=
  let x := c.toNat
  let op := bits x 7 0
  let z := fun hi lo => decide (bits x hi lo = 0)
  let nrd := op == 1
  let nwr := op == 2
  let nfl := op == 3
  let zdec := op == 4
  let csum := op == 5
  let nvm := nrd || nwr || nfl
  let ck := bits x 9 8
  let dk := bits x 11 10
  let addr := zdec || csum
  let buf := nrd || nwr || zdec
  [(0, 1 ≤ op && op ≤ 5),
   (1, z 15 14 && (csum || z 13 13) && (nwr || z 12 12) && (if nrd || zdec then dk != 3 && !(zdec && dk == 0) else dk == 0) &&
       (if nrd || csum then ck != 3 && !(csum && ck == 0) else ck == 0)),
   (2, nvm || z 25 16), (3, z 31 26), (4, nvm || z 63 32),
   (8, if nfl then z 127 64 else !addr || z 127 120),
   (16, if nfl then z 159 128 else if addr then bits x 159 128 != 0 else z 159 144),
   (20, if nrd || zdec then (dk == 0) == z 191 160 else z 191 160),
   (24, if buf then bits x 255 192 % 64 == 0 && z 255 248 else z 255 192),
   (32, bits x 319 256 % 16 == 0 && z 319 312),
   (40, ctrOk s false (bits x 383 320)),
   (48, if nrd || (csum && bit x 13) then (if ck == 1 then z 447 416 else ck == 2 || z 447 384) else z 447 384),
   (56, if nrd || zdec then bits x 511 448 % 64 == 0 && z 511 504 && (dk == 1 || z 511 448) else z 511 448)]

/-- `send.spush` (R204). -/
def execSendSpush (p : Pre) (a b l : BitVec 4) (s : State) : Host.Outcome State Fault Refusal :=
  run s (do
    let i := Instr.sendSpush p a b l
    let n := match p.reg with | some _ => wB p b | none => wA p a
    names s [n] []
    let f ← forwarded i s (if p.reg.isSome then some n else none) none
    reads s (unreplaced f [n] []) []
    let ea := srcB s f n
    checkPush s ea
    let c := cmdAt s ea
    match rejected (storageChecks s c) with
    | some w => trap cCHFAULT (chValue 1 0 w (bits c.toNat 7 0))
    | none => do
      let op := bits c.toNat 7 0
      let qp := bits c.toNat 25 16
      need (3 < op || (match look qp s.pkg.qps with | some x => x.asid == asidOf s | none => false)) cPRIV qp
      let e : StoCmd := { cmd := c, core := s.core.id, ctx := s.core.cur, inst := actInst s, asid := asidOf s,
                          stamp := s.core.actCount.toNat }
      .ok (retire p (notePush 0x32 0 c (pushRelease (storageScope s e) (updCore (fun k => { k with stoHeld := k.stoHeld ++ [e] }) s)))))

end Sys2Proof.Machine
end

