-- ==== Sys2Proof/Machine/Mxu.lean ====
section
/-! DEFINITION. The matrix unit: pushing a command (R162 to R176, R198, R283, R284), what each command does (R63 to R67, R168 to R180),
operand flow and the skimmer (R269 to R278), and the repair of a rectangle (R273). -/

namespace Sys2Proof.Machine

/-! ## Push -/

/-- Does a list of ranges stay inside the general local store? -/
def insideLs (n : Nat) (rs : List (Nat × Nat)) : Bool := rs.all (fun r => r.1 + r.2 ≤ n)

/-- Do ranges meet the home of a command? -/
def meetsHome (c : Cmd) (rs : List (Nat × Nat)) : Bool :=
  match homeOf c with | some h => rs.any (fun r => meets r.1 r.2 h.1 h.2) | none => false

/-- The home check (R164). -/
def homeOk (c : Cmd) : Bool :=
  match homeOf c with | some h => h.1 % h.2 == 0 && h.1 + h.2 ≤ 0x1F000 | none => true

/-- The address of an operand: its neighbour rule, or alignment and range, the home and the global address space (R169, R278). -/
def operandOk (c : Cmd) (b : Bool) : Bool :=
  let a := mmaAdr c b
  let code := mmaCode c b
  match mmaSrc c b with
  | 2 => a == 0
  | 1 => a % tileAlign code == 0 && a < 2 ^ 56
  | _ =>
    a % tileAlign code == 0 && a + (mmaKt c - 1) * mmaStep c b + tileBytes code ≤ 0x1F000 && !meetsHome c (tileRanges c b)

/-- The step of an operand. -/
def stepOk (c : Cmd) (b : Bool) : Bool :=
  let code := mmaCode c b
  if mmaSrc c b = 2 then mmaStep c b == 0
  else mmaKt c ≤ 1 || (mmaStep c b % tileAlign code == 0 && tileBytes code ≤ mmaStep c b)

/-- The block scales of an operand; without BSCL the field is not used. -/
def scaleOk (c : Cmd) (b : Bool) : Bool :=
  !mmaBscl c || (if mmaSrc c b = 2 then mmaScale c b == 0
    else insideLs 0x1F000 (scaleRange c b) && !meetsHome c (scaleRange c b))

/-- ASRC and BSRC against the links and the redundancy mode (R169, R284). -/
def sourceOk (red : Bool) (link c : Cmd) (b : Bool) : Bool :=
  let src := mmaSrc c b
  src != 3 && ((src == 2) == (neighbour link (if b then 2 else 0)).isSome) && (!red || src == 0)

/-- The checks of an MXU command in the order of the byte offsets of its fields. The links are those of the last MLINK that has completed
(notes/assumptions/82.md). A redundant replica multiplies in the local form only (R284, R299). -/
def mxuChecks (s : State) (c : Cmd) : List (Nat × Bool) :=
  let op := mOp c
  let z := fun hi lo => fld c hi lo == 0
  let link := s.core.mxu.link
  let red := redundant s
  if isMma op then
    let planes := fld c 35 32
    [(1, z 15 14 && sourceOk red link c false && sourceOk red link c true && !(red && linkedMma link c) && (!mmaBscl c || (mmaAcc op != 1 && mmaKt c % 2 == 0))),
     (2, !z 31 16), (4, z 63 36 && (planes == 0 || (mmaB op == 15 && 2 ≤ planes && planes ≤ 8))),
     (8, homeOk c), (12, z 127 96), (16, operandOk c false), (24, operandOk c true), (32, stepOk c false), (36, stepOk c true),
     (40, scaleOk c false), (44, scaleOk c true), (52, z 511 416)]
  else match op with
    | 1 => [(1, z 63 9), (8, homeOk c), (12, z 511 96)]
    | 2 => [(1, z 31 11 && fld c 9 8 != 3), (48, z 511 384)]
    | 3 =>
      let size := outSize (fld c 27 24)
      let dst := fld c 191 128
      [(1, z 15 12), (2, z 23 18 && fld c 17 16 != 3), (3, z 63 28 && size != 0), (8, homeOk c), (12, z 127 96),
       (16, dst % max size 1 == 0 && (if moutGlob c then dst < 2 ^ 56
         else insideLs 0x1F000 (outRanges c) && !meetsHome c (outRanges c))),
       (24, fld c 223 192 % max size 1 == 0 && 16 * size ≤ fld c 223 192), (32, z 511 256)]
    | 4 => [(1, z 63 8), (8, ctrOk s false (fld c 127 64)), (24, z 511 192)]
    | 5 =>
      let placement := match look (actInst s) s.pkg.insts with | some x => x.placement | none => []
      let side := fun (d : Nat) (absent : Bool) =>
        let v := fld c (79 + 16 * d) (64 + 16 * d)
        if v = 0xFFFF then absent else !absent && v < 2 ^ 14 && dieOf v == dieOf s.core.id && placement.contains v
      let row := fld c 37 32
      let col := fld c 45 40
      [(0, !red), (1, z 15 8), (2, z 23 22), (3, z 31 30), (4, z 39 38 && row ≤ fld c 21 16), (5, z 63 46 && col ≤ fld c 29 24),
       (8, side 0 (col == 0)), (10, side 1 (col == fld c 29 24)), (12, side 2 (row == 0)), (14, side 3 (row == fld c 21 16)),
       (16, z 511 128)]
    | 6 => [(1, z 511 8)]
    | _ => [(0, false)]

/-- An MXCMD value (R163, R180). -/
def mxValue (run off op : Nat) : Nat := run * 2 ^ 16 + off * 2 ^ 8 + op % 256

/-- The scope of the release that the push of a global MOUT makes: it is ordered as a copy push (R178, R266). -/
def moutScope (s : State) (c : Cmd) : Nat :=
  (List.range 16).foldl (fun m r => max m (rangeScope s (asidOf s) (fld c 191 128 + r * fld c 223 192) (16 * outSize (fld c 27 24)))) 0

/-- `send.mpush` (R198). The command that runs holds one of the eight places (notes/assumptions/81.md). -/
def execSendMpush (p : Pre) (a b l : BitVec 4) (s : State) : Host.Outcome State Fault Refusal :=
  run s (inParts s (do
    let g ← groups (.sendMpush p a b l) s p a b [] 1 1
    let ea := g.1.getD 0 0
    let y := g.2.getD 0 0
    checkPush s ea
    let c := cmdAt s ea
    match rejected (mxuChecks s c) with
    | some off => trap cMXCMD (mxValue 0 off (mOp c))
    | none => do
      need (!(ctx s).inTrap || (!bit (mstat s.core) 5 && mxuLocal s.core.mxu.link c)) cMXBUSY (mOp c)
      .ok [c.toNat, y])
    (fun l =>
      let c : Cmd := BitVec.ofNat 512 (l.getD 0 0)
      let y := l.getD 1 0
      if 8 ≤ s.core.mxu.q.length then .error (.latched .mxuRoom l)
      else
        let e : MxuCmd := { cmd := c, scale := BitVec.ofNat 64 y, ctx := s.core.cur, inst := actInst s,
                            stamp := s.core.actCount.toNat, linked := linkedMma s.core.mxu.link c, second := secondary s }
        let t := if mOp c = 3 && moutGlob c then pushRelease (moutScope s c) s else s
        .ok (retire p (notePush 0x30 y c (updCore (fun k => { k with mxu := { k.mxu with q := k.mxu.q ++ [e] } }) t)))))

/-! ## Arithmetic of an MMA (R63 to R66) -/

/-- The signed integer x as an exact value. -/
def intFV (x : Int) : FV := .fin (x < 0) x.natAbs 0

/-- The 256 elements of a tile (R167, R59, R61, R62). -/
def tileVals (code planes : Nat) (lut : BitVec 128) (t : List Byte) : List FV :=
  match code with
  | 15 => (List.range 256).map (fun e => intFV (bpValue t planes e))
  | 14 => t.flatMap (fun b => [b.toNat % 16, b.toNat / 16].map (fun n => intFV (sv (lutEntry lut n).toNat 8)))
  | 0 => t.map (fun b => intFV (sv b.toNat 8))
  | _ =>
    let n := etBytes code
    (List.range 256).map (fun i => fdec (fmtOf code) (numLE ((t.drop (n * i)).take n)))

/-- Rows of 16. -/
def rows16 {α : Type} (l : List α) : List (List α) := (List.range 16).map (fun r => (l.drop (16 * r)).take 16)

/-- Element k of every row. -/
def column {α : Type} (rs : List (List α)) (k : Nat) : List α := rs.filterMap (fun r => r[k]?)

/-- The chunk size (R63). -/
def chunkSize (op : Nat) : Nat := if op ≤ 0x13 then 1 else if 0x19 ≤ op && op ≤ 0x1B then 16 else 4

/-- A row cut into chunks of n. -/
def chunksOf {α : Type} (n : Nat) (l : List α) : List (List α) := (List.range (16 / n)).map (fun i => (l.drop (n * i)).take n)

/-- An exact product, NaN for ∞ × 0 (R65). -/
def mulX (x y : FV) : FV := (fvMul x y).getD (.nan false false)

/-- An exact sum, NaN for ∞ − ∞ (R65). -/
def addX (x y : FV) : FV :=
  match x, y with
  | .nan s g, _ => .nan s g
  | _, .nan s g => .nan s g
  | .inf s, .inf t => if s = t then .inf s else .nan false false
  | .inf s, _ => .inf s
  | _, .inf t => .inf t
  | .fin s m e, .fin t n g =>
    let r := exactAdd s m e t n g
    if r.1 = 0 then .fin (s && t) 0 r.2 else .fin (r.1 < 0) r.1.natAbs r.2

/-- A block scale (R46): 2 to the code minus 127, NaN for 0xFF. -/
def blockScale (x : Nat) : FV := if x = 0xFF then .nan false false else .fin false 1 ((x : Int) - 127)

/-- One chunk of a floating-point accumulator (R64): `ps` are its products with their block scales. -/
def chunkF (f : Fmt) (ss : FV) (acc : Nat) (ps : List FV) : Nat :=
  let sum := match ps with | [p] => p | _ => ps.foldl addX (.fin false 0 0)
  (ffma f 0 false (fdec f acc) (mulX ss sum) (.fin false 1 0)).val

/-- One chunk of an i32 accumulator (R66), and whether it leaves the range. -/
def chunkI (acc : Nat × Bool) (ps : List FV) : Nat × Bool :=
  let v := sv acc.1 32 + ps.foldl (fun t p => match p with | .fin s m _ => if s then t - m else t + m | _ => t) 0
  (narrow 32 v, acc.2 || v < intLo true 32 || intHi true 32 < v)

/-- One K step of one element: its row of A and its column of B, their block scales. -/
def stepElem (op : Nat) (ss : FV) (ea eb : FV) (acc : Nat) (row col : List FV) : Nat × Bool :=
  let n := chunkSize op
  if mmaAcc op = 1 then (chunksOf n (List.zipWith mulX row col)).foldl chunkI (acc, false)
  else
    let sc := mulX ea eb
    let f := if mmaAcc op = 2 then f64 else f32
    ((chunksOf n (List.zipWith (fun x y => mulX (mulX x y) sc) row col)).foldl (chunkF f ss) acc, false)

/-- One K step of a whole sub-tile (R168): element (r, c) at index 16r + c. -/
def stepTile (c : Cmd) (scale : Word) (lut : BitVec 128) (a b : Tile) (acc : List Nat) : List Nat × Bool :=
  let op := mOp c
  let k := mmaPlanes c
  let ra := rows16 (tileVals (mmaA op) k lut a.bytes)
  let rb := rows16 (tileVals (mmaB op) k lut b.bytes)
  let cols := (List.range 16).map (column rb)
  let ss := mulX (fdec f32 (bits scale.toNat 31 0)) (fdec f32 (bits scale.toNat 63 32))
  let one : FV := .fin false 1 0
  let sa := fun r => if mmaBscl c then blockScale (a.scales.getD r 0).toNat else one
  let sb := fun j => if mmaBscl c then blockScale (b.scales.getD j 0).toNat else one
  let rs := (List.range 256).map (fun i =>
    stepElem op ss (sa (i / 16)) (sb (i % 16)) (acc.getD i 0) (ra.getD (i / 16) []) (cols.getD (i % 16) []))
  (rs.map (·.1), rs.any (·.2))

/-! ## Running commands -/

/-- The head of the queue when it may begin or go on: its segment has committed where R178 asks for it, and a halted core begins
no command (R180). -/
def mxuHead (c : Core) (p : Nat → Bool) : Option MxuCmd :=
  match c.mxu.q with
  | e :: _ => if p (mOp e.cmd) && (e.begun || ((!mxuGated e || e.committed) && !c.halted)) then some e else none
  | [] => none

def updMxu (f : Mxu → Mxu) (s : State) : State := updCore (fun c => { c with mxu := f c.mxu }) s

/-- The head command is complete (R108). -/
def mxuDone (s : State) : State := updCore endIdle (updMxu (fun m => { m with q := m.q.drop 1 }) s)

/-- The command has consumed a UE (R180): it ends with its partial sums at its home and without the tiles fetched for it, and its
activation takes UE. -/
def mxuUe (e : MxuCmd) (value : Nat) (s : State) : State :=
  pend s.core.id e.stamp e.inst cUE value 2
    (trimPins (mxuDone (updMxu (fun m => { m with skimA := [], skimB := [] }) (updCore (fun c => if e.begun then putHome e c else c) s))))

/-- The queue is emptied because of an error (R180), and the rectangle waits for its repair (R273). -/
def mxuBreak (s : State) : State :=
  trimPins (updCore endIdle (updCore (fun c => let d := emptyMxu c; { d with mxu := { d.mxu with broken := true } }) s))

/-- The tile of an operand for the next K step: from the own local store, the skimmer, or the neighbour's buffer. -/
def nextTile (c : Core) (e : MxuCmd) (b : Bool) : Option Tile :=
  let code := mmaCode e.cmd b
  match mmaSrc e.cmd b with
  | 0 =>
    let a := mmaAdr e.cmd b + e.step * mmaStep e.cmd b
    let n := tileRead e.cmd code
    some { tag := mmaTag e.cmd, bytes := readBytes c.ls a n, scales := ownScales c e b,
           bad := ((poisonAt c a n).map (0xFF00000000000000 + ·)).orElse (fun _ => scalesBad c e b) }
  | 1 => ((if b then c.mxu.skimB else c.mxu.skimA)[0]?).map (fun t =>
      { t with scales := ownScales c e b, bad := t.bad.orElse (fun _ => scalesBad c e b) })
  | _ => (if b then c.mxu.north else c.mxu.west)[0]?
where
  /-- Where the block scale of row or column r stands for this step (R167). -/
  scaleAt (e : MxuCmd) (b : Bool) (r : Nat) : Nat := mmaScale e.cmd b + r * (mmaKt e.cmd / 2) + e.step / 2
  /-- The block scales of the 16 rows or columns for this step, from the own local store (R167, R278). -/
  ownScales (c : Core) (e : MxuCmd) (b : Bool) : List Byte :=
    if mmaBscl e.cmd then (List.range 16).map (fun r => memRead c.ls (scaleAt e b r)) else []
  /-- The UE value of a poisoned granule that holds one of them. -/
  scalesBad (c : Core) (e : MxuCmd) (b : Bool) : Option Nat :=
    if mmaBscl e.cmd then (List.range 16).findSome? (fun r => (poisonAt c (scaleAt e b r) 1).map (0xFF00000000000000 + ·)) else none

/-- The lowest field in which a neighbour's tile differs from the running MMA (R180). -/
def tagClash (e : MxuCmd) (t : Tile) : Option Nat :=
  let mine := mmaTag e.cmd
  if t.tag % 2 ^ 8 ≠ mine % 2 ^ 8 then some 0
  else if t.tag / 2 ^ 8 % 2 ^ 16 ≠ mine / 2 ^ 8 % 2 ^ 16 then some 2
  else if t.tag ≠ mine then some 48 else none

/-- The lowest field in which a tile that has come from a neighbour differs (R180). -/
def mmaClash (c : Core) (e : MxuCmd) : Option Nat :=
  let side := fun (b : Bool) => if mmaSrc e.cmd b = 2 then (nextTile c e b).bind (tagClash e) else none
  match side false, side true with
  | some x, some y => some (min x y)
  | some x, none => some x
  | none, y => y

/-- Take the tile of an operand from where it stands, and hand it on to the neighbour that needs it (R271). -/
def takeTile (b : Bool) (t : Tile) (src : Nat) (m : Mxu) : Mxu :=
  let m := match src, b with
    | 1, false => { m with skimA := m.skimA.drop 1 }
    | 1, true => { m with skimB := m.skimB.drop 1 }
    | 2, false => { m with west := m.west.drop 1 }
    | 2, true => { m with north := m.north.drop 1 }
    | _, _ => m
  if b then (if (neighbour m.link 3).isSome then { m with south := m.south ++ [t] } else m)
  else (if (neighbour m.link 1).isSome then { m with east := m.east ++ [t] } else m)

/-- One K step of the running MMA, its last one completing the command (R168, R164, R66). -/
def mmaStepRun (e : MxuCmd) (a b : Tile) (s : State) : State :=
  let r := stepTile e.cmd e.scale s.core.lut a b e.acc
  let e' := { e with acc := r.1, wrapped := e.wrapped || r.2, step := e.step + 1 }
  let t := updMxu (fun m => takeTile true b (mmaSrc e.cmd true) (takeTile false a (mmaSrc e.cmd false) m)) s
  if e'.step < mmaKt e.cmd then updMxu (fun m => { m with q := e' :: m.q.drop 1 }) t
  else
    mxuDone (updCore (fun c => { putHome e' c with qstat := c.qstat ||| (if e'.wrapped then 2 else 0) }) t)

/-- The UE value of a head entry that cannot be read: the MXU queue stands in the local store (R22, R405, R408). -/
def entryUe : Nat := 0xFF0000000001F800

/-- The head command of core k goes on as `f` has it, when it may and `p` names its opcode; one whose entry cannot be read ends (R180, R408). -/
def mxuEvent (k : Nat) (p : Nat → Bool) (f : MxuCmd → State → State) (s : State) : Host.Outcome State Fault Refusal :=
  .next (withCore k s (fun s => match mxuHead s.core p with
    | none => s
    | some e => if e.bad then mxuUe e entryUe s else f e s))

/-- An MMA begins: the home is read, or zeros (R164, R168). -/
def mmaBegin (e : MxuCmd) (s : State) : State :=
  let op := mOp e.cmd
  let n := accSize (mmaAcc op)
  let a := fld e.cmd 95 64
  let zero := e.cmd.toNat.testBit 8
  match (if zero then none else poisonAt s.core a (256 * n)) with
  | some x => mxuUe e (0xFF00000000000000 + x) s
  | none =>
    let acc := (List.range 256).map (fun i => if zero then 0 else readLE s.core.ls (a + n * i) n)
    updMxu (fun m => { m with q := { e with begun := true, acc := acc } :: m.q.drop 1 }) s

/-- MMA (R168, R169, R270, R271): it begins, then each event is one K step whose operands are present. -/
def execMma (k : Nat) (s : State) : Host.Outcome State Fault Refusal :=
  mxuEvent k isMma (fun e s =>
      if !e.begun then mmaBegin e s
      else match mmaClash s.core e with
        | some off => mxuBreak (pend s.core.id e.stamp e.inst cMXCMD (mxValue 1 off (mOp e.cmd)) 2 s)
        | none => match nextTile s.core e false, nextTile s.core e true with
          | some a, some b =>
            (match a.bad.orElse (fun _ => b.bad) with
             | some v => mxuUe e v s
             | none => mmaStepRun e a b s)
          | _, _ => s) s

/-- MZERO (R171). -/
def execMzero (k : Nat) (s : State) : Host.Outcome State Fault Refusal :=
  mxuEvent k (· == 1) (fun e s => match homeOf e.cmd with
      | some h => mxuDone (updCore (rawPut h.1 (List.replicate h.2 0)) s)
      | none => mxuDone s) s

/-- MMASK (R172, R282). -/
def execMmask (k : Nat) (s : State) : Host.Outcome State Fault Refusal :=
  mxuEvent k (· == 2) (fun e s => mxuDone (updMxu (fun m => { m with mask := e.cmd }) s)) s

/-- Is element (r, j) masked (R173)? -/
def masked (mask : Cmd) (r j : Nat) : Bool :=
  let row := sv (fld mask 95 64) 32
  let pc := sv (fld mask 127 96) 32 + j
  match fld mask 9 8 with
  | 1 => row + r < pc
  | 2 =>
    let t := pc - row
    !(t < 0 || (t < 16 && mask.toNat.testBit (128 + 16 * r + t.toNat)))
  | _ => false

/-- An exact value converted to an output type in RNE (R174, R56 to R58). -/
def outConv (otype : Nat) (sat : Bool) (v : FV) : FR :=
  if isInt otype then fToInt true (etWidth otype) 0 sat v else fconv (fmtOf otype) 0 sat v

/-- The output of one element. -/
def outElem (c mask : Cmd) (acc : List Nat) (r j : Nat) : FR :=
  let otype := fld c 27 24
  let sat := c.toNat.testBit 9
  if c.toNat.testBit 8 && masked mask r j then
    outConv otype sat (fdec f32 (if mask.toNat.testBit 10 then fld mask 63 32 else 0xFF800000))
  else
    let x := acc.getD (16 * r + j) 0
    let v := match fld c 17 16 with | 0 => fdec f32 x | 1 => intFV (sv x 32) | _ => fdec f64 x
    outConv otype sat (mulX v (fdec f32 (fld c 255 224)))

/-- The first global address of a MOUT that cannot be written. -/
def moutFault (s : State) (e : MxuCmd) : Option Nat :=
  if moutGlob e.cmd then
    ((List.range 16).map (fun r => fld e.cmd 191 128 + r * fld e.cmd 223 192)).find? (fun va =>
      !writableRange s (asidOfInst s e.inst) va (16 * outSize (fld e.cmd 27 24)))
  else none

/-- MOUT (R174, R178): a global one waits for its translation. A secondary's global output is discarded (R312). -/
def execMout (k : Nat) (s : State) : Host.Outcome State Fault Refusal :=
  mxuEvent k (· == 3) (fun e s =>
      let c := e.cmd
      let n := accSize (fld c 17 16)
      let home := fld c 95 64
      let acc := (List.range 256).map (fun i => readLE s.core.ls (home + n * i) n)
      match poisonAt s.core home (256 * n) with
      | some x => mxuUe e (0xFF00000000000000 + x) s
      | none =>
        if (moutFault s e).isSome && !e.second then s
        else
          let size := outSize (fld c 27 24)
          let rs := (List.range 16).map (fun r => (List.range 16).map (outElem c s.core.mxu.mask acc r))
          let sat := rs.any (fun l => l.any (·.sat))
          let row := fun r => (rs.getD r []).flatMap (fun x => bytesLE x.val size)
          let at_ := fun r => fld c 191 128 + r * fld c 223 192
          let t := (List.range 16).foldl (fun t r =>
            if !moutGlob c then updCore (rawPut (at_ r) (row r)) t
            else if e.second then t
            else homeWrite (asidOfInst s e.inst) (at_ r) (row r) t) s
          let t := if c.toNat.testBit 10 then updCore (rawPut home (List.replicate (256 * n) 0)) t else t
          mxuDone (updCore (fun d => { d with qstat := d.qstat ||| (if sat then 1 else 0) }) t)) s

/-- MSIG (R175): the add is a release of the completed commands' writes. -/
def execMsig (k : Nat) (s : State) : Host.Outcome State Fault Refusal :=
  mxuEvent k (· == 4) (fun e s =>
      let asid := asidOfInst s e.inst
      let va := fld e.cmd 127 64
      if e.second then mxuDone s
      else
        mxuDone (updPkg (fun g => { g with adds := g.adds ++ [{ asid := asid, va := va, inc := fld e.cmd 191 128, core := s.core.id,
                                                                inst := e.inst, stamp := e.stamp }] }) s)) s

/-- MLINK (R176). -/
def execMlink (k : Nat) (s : State) : Host.Outcome State Fault Refusal :=
  mxuEvent k (· == 5) (fun e s => mxuDone (updMxu (fun m => { m with link := e.cmd }) s)) s

/-- MNOP (R177). -/
def execMnop (k : Nat) (s : State) : Host.Outcome State Fault Refusal :=
  mxuEvent k (· == 6) (fun _ s => mxuDone s) s

/-! ## Operand flow -/

/-- Bytes of some tiles. -/
def tilesSize (ts : List Tile) : Nat := ts.foldl (fun n t => n + t.bytes.length) 0

/-- The tiles in an operand buffer: those that wait for their MMA, and those used and not yet forwarded to a neighbour (R271). -/
def bufferTiles (m : Mxu) (north : Bool) : List Tile :=
  if north then m.north ++ (if (neighbour m.link 2).isSome then m.south else [])
  else m.west ++ (if (neighbour m.link 0).isSome then m.east else [])

/-- Bytes of an operand buffer: its tiles, and those taken in that are not yet forwarded (R271). -/
def bufferSize (m : Mxu) (north : Bool) : Nat := tilesSize (bufferTiles m north)

/-- The tile that waits for core k at its west (or, southward, its north) neighbour, and the neighbour, when there is room for it. -/
def nextArrival (k : Nat) (south : Bool) (s : State) : Option (Nat × Tile) :=
  let c := coreOf s k
  match neighbour c.mxu.link (if south then 2 else 0) with
  | none => none
  | some j =>
    match (if south then (coreOf s j).mxu.south else (coreOf s j).mxu.east) with
    | [] => none
    | t :: _ => if bufferSize c.mxu south + t.bytes.length ≤ 4096 then some (j, t) else none

/-- OPERAND_TILE_ARRIVAL (R271): core k receives the next tile of its west (or, southward, its north) neighbour, into room. -/
def execOperandTileArrival (k : Nat) (south : Bool) (s : State) : Host.Outcome State Fault Refusal :=
  .next (
    match nextArrival k south s with
    | none => s
    | some (j, t) =>
      let d := coreOf s j
      let s := setCore j { d with mxu := if south then { d.mxu with south := d.mxu.south.drop 1 } else { d.mxu with east := d.mxu.east.drop 1 } } s
      let c := coreOf s k
      setCore k { c with mxu := if south then { c.mxu with north := c.mxu.north ++ [t] }
                                else { c.mxu with west := c.mxu.west ++ [t] } } s)

/-- The next tile that the skimmer fetches for an operand of the running MMA: its global address and length. -/
def skimNext (c : Core) (b : Bool) : Option (MxuCmd × Nat × Nat) :=
  match c.mxu.q with
  | e :: _ =>
    let have_ := (if b then c.mxu.skimB else c.mxu.skimA).length
    let t := e.step + have_
    if isMma (mOp e.cmd) && e.begun && mmaSrc e.cmd b == 1 && have_ < 8 && t < mmaKt e.cmd then
      some (e, mmaAdr e.cmd b + t * mmaStep e.cmd b, tileRead e.cmd (mmaCode e.cmd b))
    else none
  | [] => none

/-- The first physical address of a range that lies in a poisoned granule of home memory. -/
def homePoison (s : State) (asid va n : Nat) : Option Nat :=
  (List.range n).findSome? (fun i => match paOf s asid (va + i) with
    | some pa => if homeBad s.pkg pa then some pa else none
    | none => none)

def homePoisoned (s : State) (asid va n : Nat) : Bool := (homePoison s asid va n).isSome

/-! ## Pins (R276) -/

/-- The pins with those of some lines, each line once; none where a set would hold more than four (R276). In DEC-TED mode the four are
among the 14 ways that remain. -/
def pinLines : List Nat → List Nat → Option (List Nat)
  | [], pins => some pins
  | l :: ls, pins =>
    if pins.contains l then pinLines ls pins
    else if 4 ≤ (pins.filter (fun x => Config.l2Set x == Config.l2Set l)).length then none
    else pinLines ls (pins ++ [l])

/-- The next tile that the skimmer can fetch: it is translated and its lines can be pinned; with the pins that then are held. -/
def skimReady (s : State) (opB : Bool) : Option (Tile × List Nat) :=
  match skimNext s.core opB with
  | none => none
  | some (e, va, n) =>
    let asid := asidOfInst s e.inst
    match homeRead s asid va n with
    | none => none
    | some bs =>
      (pinLines (linesAt s asid va n) (trimPins s).pkg.skimPins).map (fun ps =>
        ({ tag := mmaTag e.cmd, bytes := bs, bad := homePoison s asid va n }, ps))

/-- SKIMMER_FETCH (R274 to R276): the next tile of an edge operand is read at its home, its lines pinned there until every edge member
has received them. A fetch that faults waits, and one that would pin a fifth way of a set. -/
def execSkimmerFetch (k : Nat) (opB : Bool) (s : State) : Host.Outcome State Fault Refusal :=
  .next (withCore k s (fun s =>
    match skimReady s opB with
    | none => s
    | some (t, ps) =>
      trimPins (updMxu (fun m => if opB then { m with skimB := m.skimB ++ [t] } else { m with skimA := m.skimA ++ [t] })
        (updPkg (fun g => { g with skimPins := ps }) s))))

/-- The rectangle of a core: that of its resident instance's placement, else the one that its link setting describes. -/
def rectangleOf (s : State) (k : Nat) : Rect :=
  let c := coreOf s k
  match look (c.resident.getD 0) s.pkg.insts with
  | some x => (rectOf x.rects k).getD (rectOfLink c.mxu.link k)
  | none => rectOfLink c.mxu.link k

/-! ## Pre-emption and repair -/

/-- Has the queue come to rest for a save (R285): empty, or its head waits for tiles or for its commit? -/
def mxuAtRest (c : Core) : Bool :=
  match c.mxu.q with
  | [] => true
  | e :: _ =>
    if e.begun then (nextTile c e false).isNone || (nextTile c e true).isNone else mxuGated e && !e.committed

/-- A begun MMA stops at a chunk boundary and writes back its home; fetched tiles that it has not used go (R285). -/
def restMxu (c : Core) : Core :=
  match c.mxu.q with
  | e :: _ => if e.begun && isMma (mOp e.cmd) then
      let d := putHome e c
      { d with mxu := { d.mxu with skimA := [], skimB := [] } } else c
  | [] => c

/-- MXU_SAVE (R285): the MXU sections of a pre-empted core are written at the first moment at which the queue is at rest. -/
def execMxuSave (k : Nat) (s : State) : Host.Outcome State Fault Refusal :=
  .next (withCore k s (fun s =>
    match s.core.act with
    | some a => (match a.st with | .preempted _ => if mxuAtRest s.core then updCore restMxu s else s | _ => s)
    | none => s))

/-- RECTANGLE_REPAIR (R273): the queues and buffers of every member of the rectangle are emptied, their link settings loaded
again, their pins released, and an error record names the rectangle. -/
def execRectangleRepair (k : Nat) (s : State) : Host.Outcome State Fault Refusal :=
  .next (
    let c := coreOf s k
    if !c.mxu.broken then s
    else
      let r := rectangleOf s k
      let fix := fun (j : Nat) (c : Core) =>
        let d := emptyMxu c
        { d with mxu := { d.mxu with broken := false, link := linkIn r j } }
      let t := (rectCores r).foldl (fun t j => setCore j (fix j (coreOf t j)) t) s
      logErr { inst := c.resident.getD 0, core := k, cause := 12, detail := r.origin } (trimPins t))

end Sys2Proof.Machine
end

