-- ==== Sys2Proof/Machine/Channel.lean ====
section
/-! DEFINITION. The copy channels (R199 to R203, R265, R302): how a command begins, how its sectors are delivered or accepted, CSIG,
and what stops a channel. -/

namespace Sys2Proof.Machine

def chanOf (c : Core) (ch : Nat) : Chan := c.chans.getD ch {}
def updChan (ch : Nat) (f : Chan → Chan) (s : State) : State := updCore (fun c => { c with chans := mapAt f ch c.chans }) s

/-- The bytes of a CFILL sector. -/
def fillBytes (c : Cmd) : List Byte := (List.range 8).flatMap (fun _ => bytesLE (fld c 511 448) 8)

/-- Is the activation of a core pre-empted (R333)? -/
def preempted (c : Core) : Bool := match c.act with | some a => (match a.st with | .preempted _ => true | _ => false) | none => false

/-- The head of a channel when it may begin or go on (R199). -/
def chanHead (c : Core) (ch : Nat) (op : Nat → Bool) (begun : Bool) : Option CopyCmd :=
  match (chanOf c ch).q with
  | e :: _ => if op (fld e.cmd 7 0) && e.begun == begun && (begun || ((copyInbound e.cmd || e.committed) && !c.halted && !preempted c)) then some e
    else none
  | [] => none

/-- The same change on every secondary of the activation that pushed a command, also after its end (R302). -/
def mirror (e : CopyCmd) (f : Core → Core) (s : State) : State := e.seconds.foldl (fun t k => setCore k (f (coreOf t k)) t) s

/-- The head begins; OPEN sets CHWP to 0 (R200, R201). -/
def chanBegin (ch : Nat) (e : CopyCmd) (s : State) : State :=
  let opens := copyInbound e.cmd && e.cmd.toNat.testBit 9
  let reset := fun (c : Core) => if opens then { c with chans := mapAt (fun x => { x with chwp := 0, isOpen := true }) ch c.chans } else c
  mirror e reset (updCore reset (updChan ch (fun x => { x with q := { e with begun := true } :: x.q.drop 1 }) s))

/-- The head is complete. -/
def chanDone (ch : Nat) (s : State) : State := updChan ch (fun x => { x with q := x.q.drop 1 }) s

/-- Where a running command stops (R203): its channel is closed and emptied, those of the secondaries with it, and CHFAULT follows. -/
def chanStop (ch : Nat) (e : CopyCmd) (wher : Nat) (s : State) : State :=
  let close := fun (c : Core) => { c with chans := mapAt (fun x => { x with q := [], isOpen := false }) ch c.chans }
  let t := mirror e close (updCore close s)
  pend s.core.id e.stamp e.inst cCHFAULT (chValue 0 1 wher (fld e.cmd 7 0)) (if wher = 2 then 2 else 15) t

/-- A fault value for traffic to another package (R203, R401): 3 without a route or cut off, 4 without the REMOTE right or
refused there. -/
def remoteStop (s : State) (asid dest : Nat) : Option Nat :=
  if (look dest s.pkg.routes).isNone || s.pkg.cutOff.any (fun x => x.2 == dest) then some 3
  else if !(match look asid s.pkg.tenants with | some t => t.remote | none => false) then some 4
  else if Config.remoteRefuses s.freeCtr dest then some 4
  else none

/-- The next sector of an inbound command as the channel can deliver it now; none where it waits, or where it is refused. -/
def nextSector (s : State) (e : CopyCmd) : Option (List Byte) :=
  let va := copyVa e.cmd e.done
  let asid := asidOfInst s e.inst
  if fld e.cmd 7 0 = 3 then some (fillBytes e.cmd)
  else match copyRemote e.cmd with
    | some d => if (remoteStop s asid d).isNone then some ((List.range 64).map (fun i => Config.remoteByte s.freeCtr (va + i))) else none
    | none => if homePoisoned s asid va 64 then none else homeRead s asid va 64

/-- Bytes of the next inbound sector land before the write pointer covers them: a read finds the old or the delivered value (R261, R7). -/
def landEarly (ch : Nat) (e : CopyCmd) (s : State) : State :=
  match nextSector s e with
  | none => s
  | some bs =>
    let a := copyLs e.cmd e.done
    let new := ((List.range 64).filter (fun i => Config.takesNew s.freeCtr (a + i) && (look (a + i) e.early).isNone)).map (fun i => (a + i, bs.getD i 0))
    let put := fun (c : Core) => new.foldl (fun c x => rawPut x.1 [x.2] c) c
    bump (mirror e put (updCore put (updChan ch (fun x => { x with q := { e with early := e.early ++ new } :: x.q.drop 1 }) s)))

/-- A running command goes on between its sectors: bytes of the next inbound one land, source bytes of the outbound ones are read anew (R7,
R202, R261). -/
def chanRuns (ch : Nat) (e : CopyCmd) (s : State) : State :=
  if copyInbound e.cmd then landEarly ch e s
  else bump (updChan ch (fun x => { x with q := sampled (Config.takesNew s.freeCtr) s.core.ls e :: x.q.drop 1 }) s)

/-- The head of a channel goes on as `f` has it; an entry that cannot be read stops the channel (R203, R405). -/
def chanStep (ch : Nat) (e : CopyCmd) (f : State → State) (s : State) : State := if e.bad then chanStop ch e 2 s else f s

/-- A command with an opcode begins, or goes on. -/
def copyBegin (op k ch : Nat) (s : State) : State :=
  withCore k s (fun s => match chanHead s.core ch (· == op) false with
    | some e => chanStep ch e (chanBegin ch e) s
    | none => match chanHead s.core ch (· == op) true with | some e => chanStep ch e (chanRuns ch e) s | none => s)

/-- CCOPY begins (R199, R200); on a running one, `chanRuns`. -/
def execCcopy (k ch : Nat) (s : State) : Host.Outcome State Fault Refusal := .next (copyBegin 1 k ch s)

/-- CCOPY2 begins, or goes on (R199, R200). -/
def execCcopy2 (k ch : Nat) (s : State) : Host.Outcome State Fault Refusal := .next (copyBegin 2 k ch s)

/-- CFILL begins, or goes on (R199, R200). -/
def execCfill (k ch : Nat) (s : State) : Host.Outcome State Fault Refusal := .next (copyBegin 3 k ch s)

/-- The counter on another package that a command's add goes to: not that of an inbound command (R183, R201). -/
def remoteCtr (e : CopyCmd) : Option Nat := if copyInbound e.cmd then none else copyRemote e.cmd

/-- The add of a command that counts or signals (R202): to a counter of this package, or with a copy to another one. One that saturates
there raises CTROVF in the activation that pushed it (R184, R220). -/
def copyAdd (e : CopyCmd) (inc : Nat) (s : State) : State :=
  let asid := asidOfInst s e.inst
  let va := fld e.cmd 383 320
  match remoteCtr e with
  | some d =>
    let t := updPkg (fun g => { g with flits := g.flits ++ [⟨d, 0, .ctrAdd asid va inc⟩] }) (bump s)
    if Config.remoteOverflows s.freeCtr va then (pendLive s.core.id e.stamp e.inst cCTROVF va t).getD t else t
  | none => updPkg (fun g => { g with adds := g.adds ++ [{ asid := asid, va := va, inc := inc, core := s.core.id, inst := e.inst,
                                                           stamp := e.stamp }] }) s

/-- An add to a counter of another package is refused there (R183), which stops the channel with WHERE 4; else the command goes on. -/
def withRemoteCtr (ch : Nat) (e : CopyCmd) (s : State) (go : State → State) : State :=
  match remoteCtr e with
  | some d => if Config.remoteRefuses s.freeCtr d then chanStop ch e 4 (bump s) else go (bump s)
  | none => go s

/-- May a command that sends to another package do so before what the core has sent there earlier: its messages and arms' messages on
their way, and copies of other channels (R400)? One that stays on this package waits for nothing. -/
def sendsInTurn (s : State) (ch : Nat) (e : CopyCmd) : Bool :=
  match copyRemote e.cmd with
  | none => true
  | some d =>
    copyInbound e.cmd ||
      (!s.pkg.msgs.any (fun f => f.src == s.core.id && f.pkg == d && f.seq < e.seq) &&
        !(List.range 4).any (fun i => i != ch && (chanOf s.core i).q.any (fun x =>
          x.committed && !copyInbound x.cmd && copyRemote x.cmd == some d && x.seq < e.seq)))

/-- One more sector of the head is done. -/
def sectorDone (ch : Nat) (e : CopyCmd) (s : State) : State :=
  let next := fun (t : State) =>
    let t := updChan ch (fun x => { x with q := { e with done := e.done + 1, early := [] } :: x.q.drop 1 }) t
    if e.done + 1 < copySectors e.cmd then t else chanDone ch t
  if e.cmd.toNat.testBit 10 then withRemoteCtr ch e s (fun s => next (copyAdd e 1 s)) else next s

/-- CSIG (R200, R202): once its segment has committed and it is the head. -/
def execCsig (k ch : Nat) (s : State) : Host.Outcome State Fault Refusal :=
  .next (withCore k s (fun s =>
    match chanHead s.core ch (· == 4) false with
    | none => s
    | some e =>
      if !sendsInTurn s ch e then s
      else if e.bad then chanStop ch e 2 s
      else match copyRemote e.cmd with
      | some d =>
        (match remoteStop s (asidOfInst s e.inst) d with
         | some w => chanStop ch e w (bump s)
         | none => chanDone ch (copyAdd e (fld e.cmd 447 384) (bump s)))
      | none => chanDone ch (copyAdd e (fld e.cmd 447 384) s)))

/-- A sector lands in the local store of the core and of its secondaries, CHWP advances, IDLEs end (R202, R302, R108). -/
def landSector (ch : Nat) (e : CopyCmd) (a : Nat) (bs : List Byte) (s : State) : State :=
  let put := fun (c : Core) => rawPut a bs { c with chans := mapAt (fun x => { x with chwp := x.chwp + 64 }) ch c.chans }
  mirror e (fun c => endIdle (put c)) (updCore (fun c => endIdle (put c)) s)

/-- The bytes of an inbound sector, those that have landed early as they are. -/
def withEarly (e : CopyCmd) (a : Nat) (bs : List Byte) : List Byte := (List.range bs.length).map (fun i => (look (a + i) e.early).getD (bs.getD i 0))

/-- The bytes of an outbound sector: each as the channel has read it, or as it stands now (R202, R7). -/
def sourceBytes (s : State) (e : CopyCmd) (a : Nat) : List Byte :=
  (List.range 64).map (fun i =>
    let now := memRead s.core.ls (a + i)
    if Config.takesNew s.freeCtr (a + i) then now else (look (a + i) e.olds).getD now)

/-- SECTOR_DELIVERY (R202, R203): the next sector of a running inbound command. Bytes of another package's memory are free. -/
def execSectorDelivery (k ch : Nat) (s : State) : Host.Outcome State Fault Refusal :=
  .next (withCore k s (fun s =>
    match chanHead s.core ch (fun op => op != 4) true with
    | none => s
    | some e =>
      let c := e.cmd
      let asid := asidOfInst s e.inst
      let a := copyLs c e.done
      let va := copyVa c e.done
      if !copyInbound c then s
      else if e.bad then chanStop ch e 2 s
      else if fld c 7 0 = 3 then sectorDone ch e (landSector ch e a (withEarly e a (fillBytes c)) s)
      else match copyRemote c with
        | some d =>
          (match if e.early.isEmpty then remoteStop s asid d else none with
           | some w => chanStop ch e w (bump s)
           | none =>
             sectorDone ch e (landSector ch e a (withEarly e a ((List.range 64).map (fun i => Config.remoteByte s.freeCtr (va + i)))) (bump s)))
        | none =>
          match homeRead s asid va 64 with
          | none => s
          | some bs => if homePoisoned s asid va 64 then chanStop ch e 2 s else sectorDone ch e (landSector ch e a (withEarly e a bs) s)))

/-- SECTOR_ACCEPTED (R202, R203): the next sector of a running outbound command is accepted at its home slice, or acknowledged
by the port of another package. -/
def execSectorAccepted (k ch : Nat) (s : State) : Host.Outcome State Fault Refusal :=
  .next (withCore k s (fun s =>
    match chanHead s.core ch (fun op => op != 4) true with
    | none => s
    | some e =>
      let c := e.cmd
      let asid := asidOfInst s e.inst
      let a := copyLs c e.done
      let va := copyVa c e.done
      let fill := fld c 7 0 == 3
      let bs := if fill then fillBytes c else sourceBytes s e a
      let s := if fill then s else bump s
      if copyInbound c || !sendsInTurn s ch e then s
      else if e.bad || (!fill && (poisonAt s.core a 64).isSome) then chanStop ch e 2 s
      else match copyRemote c with
        | some d =>
          (match remoteStop s asid d with
           | some w => chanStop ch e w (bump s)
           | none => sectorDone ch e (updPkg (fun g => { g with flits := g.flits ++ [⟨d, 0, .copyWrite asid va bs⟩] }) (bump s)))
        | none => if writableRange s asid va 64 then sectorDone ch e (homeWrite asid va bs s) else s))

/-- The global address for whose translation a channel waits. -/
def chanFault (s : State) (c : Core) (ch : Nat) : Option Nat :=
  match (chanOf c ch).q with
  | e :: _ =>
    let asid := asidOfInst s e.inst
    let va := copyVa e.cmd e.done
    let op := fld e.cmd 7 0
    if !e.begun || op == 4 || (copyRemote e.cmd).isSome then none
    else if copyInbound e.cmd then (if op == 3 || (homeRead s asid va 64).isSome then none else some va)
    else if writableRange s asid va 64 then none else some va
  | [] => none

end Sys2Proof.Machine
end

