-- ==== Sys2Proof/Machine/Inflate.lean ====
section
/-! DEFINITION. The decompressors (R207, R396): Zstandard frames and LZ4 blocks. The spec names the formats; what a frame or a block expands
to is theirs, as RFC 8878 and the LZ4 block format give it (notes/assumptions/31.md). None stands for malformed data. -/

namespace Sys2Proof.Machine

/-- Source and output bytes of a decompressor. -/
abbrev Bytes := Array Byte

/-- n bytes at a place, little-endian; none beyond the end. -/
def leAt (src : Bytes) (at_ n : Nat) : Option Nat :=
  if at_ + n ≤ src.size then some ((List.range n).foldr (fun i x => (src.getD (at_ + i) 0).toNat + 256 * x) 0) else none

/-- Bits lo to lo + n - 1 of a stream of bytes, bit 0 the lowest of its first byte. -/
def bitsIn (src : Bytes) (lo n : Nat) : Nat :=
  (List.range ((lo % 8 + n + 7) / 8)).foldr (fun i x => (src.getD (lo / 8 + i) 0).toNat + 256 * x) 0 / 2 ^ (lo % 8) % 2 ^ n

/-- Copy a match of n bytes at a distance, byte by byte: it may overlap itself. `hist` is what stands before the output. -/
def copyMatch (hist : Bytes) (dist : Nat) : Nat → Bytes → Bytes
  | 0, out => out
  | n + 1, out =>
    let at_ := hist.size + out.size - dist
    copyMatch hist dist n (out.push (if at_ < hist.size then hist.getD at_ 0 else out.getD (at_ - hist.size) 0))

/-! ## LZ4 blocks -/

/-- A length whose first part is `n`: 15 goes on in bytes up to one that is not 255. -/
def lz4Len (src : Bytes) : Nat → Nat → Nat → Option (Nat × Nat)
  | 0, _, _ => none
  | fuel + 1, at_, n =>
    match src[at_]? with
    | none => none
    | some b => if b = 255 then lz4Len src fuel (at_ + 1) (n + 255) else some (n + b.toNat, at_ + 1)

/-- The sequences of a block from a place. It ends after literals, at the end of the source or where the output has its length. -/
def lz4Go (src : Bytes) (olen : Nat) : Nat → Nat → Bytes → Option (Bytes × Nat)
  | 0, _, _ => none
  | fuel + 1, at_, out => do
    let token ← (src[at_]?).map (·.toNat)
    let (lits, p) ← if token / 16 = 15 then lz4Len src (src.size + 1) (at_ + 1) 15 else some (token / 16, at_ + 1)
    if src.size < p + lits then none
    else do
      let out := (List.range lits).foldl (fun o i => o.push (src.getD (p + i) 0)) out
      let p := p + lits
      if p = src.size ∨ (olen ≤ out.size ∧ (src.extract p src.size).all (· == 0)) then some (out, p)
      else do
        let dist ← leAt src p 2
        let (len, p) ← if token % 16 = 15 then lz4Len src (src.size + 1) (p + 2) 15 else some (token % 16, p + 2)
        if dist = 0 ∨ out.size < dist then none
        else lz4Go src olen fuel p (copyMatch #[] dist (len + 4) out)

/-- The output of the block that begins at the first byte, and the bytes that it takes. -/
def lz4 (src : Bytes) (olen : Nat) : Option (Bytes × Nat) := lz4Go src olen (src.size + 1) 0 #[]

/-! ## Finite state entropy (RFC 8878, 4.1) -/

/-- A decoding table: its accuracy, and for each state a symbol, the bits to read and the base of the next state. -/
structure Fse where
  log  : Nat
  rows : Array (Nat × Nat × Nat)

/-- The position of the highest bit of a number. -/
def topBit (n : Nat) : Nat := Nat.log2 n

/-- The probabilities of a table description, from a bit position; -1 stands for "less than one". -/
def fseProbs (src : Bytes) : Nat → Nat → Nat → List Int → Option (List Int × Nat)
  | 0, _, _, _ => none
  | fuel + 1, pos, left, acc =>
    if left = 0 then some (acc.reverse, pos)
    else if 8 * src.size < pos then none
    else
      let n := topBit (left + 1) + 1
      let v := bitsIn src pos n
      let low := v % 2 ^ (n - 1)
      let thr := 2 ^ n - 1 - (left + 1)
      let r := if low < thr then (low, n - 1) else if 2 ^ (n - 1) ≤ v then (v - thr, n) else (v, n)
      let p : Int := (r.1 : Int) - 1
      let pos := pos + r.2
      let cost := if r.1 = 0 then 1 else r.1 - 1
      if left < cost then none
      else if r.1 = 1 then
        let rec zeros : Nat → Nat → Nat × Nat
          | 0, pos => (0, pos)
          | f + 1, pos => let k := bitsIn src pos 2; if k = 3 then let t := zeros f (pos + 2); (3 + t.1, t.2) else (k, pos + 2)
        let z := zeros 128 pos
        fseProbs src fuel z.2 left (List.replicate z.1 0 ++ (0 :: acc))
      else fseProbs src fuel pos (left - cost) (p :: acc)

/-- The next place for a symbol: a step on, past the places that are taken. -/
def fseStep (size high : Nat) : Nat → Nat → Nat
  | 0, pos => pos
  | fuel + 1, pos =>
    let q := (pos + size / 2 + size / 8 + 3) % size
    if high ≤ q then fseStep size high fuel q else q

/-- Spread the symbols over the states. -/
def fseSpread (size high : Nat) : List (Nat × Int) → Nat → Array Nat → Nat × Array Nat
  | [], pos, a => (pos, a)
  | (s, p) :: r, pos, a =>
    let t := (List.range p.toNat).foldl (fun t _ => (fseStep size high size t.1, t.2.setIfInBounds t.1 s)) (pos, a)
    fseSpread size high r t.1 t.2

/-- The table of some probabilities. -/
def fseTable (log : Nat) (ps : List Int) : Option Fse :=
  let size := 2 ^ log
  let ids := (List.range ps.length).zip ps
  let lows := ids.filter (fun x => x.2 == -1)
  let high := size - lows.length
  let a := (List.range lows.length).foldl (fun (a : Array Nat) i => a.setIfInBounds (size - 1 - i) (lows.getD i (0, 0)).1) (Array.replicate size 0)
  let t := fseSpread size high ids 0 a
  if t.1 ≠ 0 then none
  else
    let next := (ps.map (fun p => if p = -1 then 1 else p.toNat)).toArray
    some ⟨log, ((List.range size).foldl (fun (u : Array (Nat × Nat × Nat) × Array Nat) i =>
      let s := t.2.getD i 0
      let d := u.2.getD s 0
      let n := log - topBit d
      (u.1.push (s, n, d * 2 ^ n - size), u.2.setIfInBounds s (d + 1))) (#[], next)).1⟩

/-- A table description at a byte: its table, and the byte after it. -/
def fseRead (src : Bytes) (at_ maxLog maxSym : Nat) : Option (Fse × Nat) := do
  let log := bitsIn src (8 * at_) 4 + 5
  let (ps, pos) ← fseProbs src 512 (8 * at_ + 4) (2 ^ log) []
  let t ← fseTable log ps
  if log ≤ maxLog ∧ ps.length ≤ maxSym + 1 ∧ (pos + 7) / 8 ≤ src.size then some (t, (pos + 7) / 8) else none

/-- The table of one symbol. -/
def fseOne (s : Nat) : Fse := ⟨0, #[(s, 0, 0)]⟩

def Fse.sym (t : Fse) (st : Nat) : Nat := (t.rows.getD st (0, 0, 0)).1

/-! ## Streams that are read backward: `pos` bits of a stream are left, its bits below 0 read 0 -/

/-- The bits of a stream below its end mark. -/
def backStart (src : Bytes) : Option Nat :=
  match src.back? with
  | some b => if b = 0 then none else some (8 * (src.size - 1) + topBit b.toNat)
  | none => none

/-- The next n bits. -/
def backBits (src : Bytes) (pos : Int) (n : Nat) : Nat :=
  if (n : Int) ≤ pos then bitsIn src (pos - n).toNat n
  else if pos ≤ 0 then 0 else bitsIn src 0 pos.toNat * 2 ^ (n - pos.toNat)

/-- The next state of a table. -/
def Fse.next (t : Fse) (src : Bytes) (pos : Int) (st : Nat) : Nat × Int :=
  let r := t.rows.getD st (0, 0, 0)
  (r.2.2 + backBits src pos r.2.1, pos - r.2.1)

/-! ## Huffman coding (RFC 8878, 4.2) -/

/-- A Huffman table: the length of its longest code, and for that many bits the symbol and the length of its code. -/
structure Huf where
  bits : Nat
  rows : Array (Nat × Nat)

/-- Weights that two interleaved states give, until the stream is used up. -/
def hufWeightsGo (t : Fse) (src : Bytes) : Nat → Int → Nat → Nat → List Nat → Option (List Nat)
  | 0, _, _, _, _ => none
  | fuel + 1, pos, a, b, acc =>
    let r := t.next src pos a
    if r.2 < 0 then some ((t.sym b :: t.sym a :: acc).reverse) else hufWeightsGo t src fuel r.2 b r.1 (t.sym a :: acc)

/-- The weights of a tree description at a byte, and the byte after it. -/
def hufWeights (src : Bytes) (at_ : Nat) : Option (List Nat × Nat) := do
  let h ← (src[at_]?).map (·.toNat)
  if 128 ≤ h then
    let n := h - 127
    if src.size < at_ + 1 + (n + 1) / 2 then none
    else some ((List.range n).map (fun i =>
      let b := (src.getD (at_ + 1 + i / 2) 0).toNat
      if i % 2 = 0 then b / 16 else b % 16), at_ + 1 + (n + 1) / 2)
  else do
    let end_ := at_ + 1 + h
    if src.size < end_ then none
    else do
      let (t, p) ← fseRead (src.extract 0 end_) (at_ + 1) 6 255
      let s := src.extract p end_
      let n ← backStart s
      let pos : Int := (n : Int) - 2 * t.log
      if pos < 0 then none
      else do
        let ws ← hufWeightsGo t s 256 pos (backBits s n t.log) (backBits s ((n : Int) - t.log) t.log) []
        if ws.length ≤ 255 then some (ws, end_) else none

/-- The table of some weights; the last symbol's is what is missing to a power of two. -/
def hufTable (ws : List Nat) : Option Huf :=
  let sum := (ws.map (fun w => if w = 0 then 0 else 2 ^ (w - 1))).foldl (· + ·) 0
  if sum = 0 then none
  else
    let m := topBit sum + 1
    let left := 2 ^ m - sum
    if 11 < m ∨ left ≠ 2 ^ topBit left ∨ ws.any (m < ·) then none
    else
      let all := (ws ++ [topBit left + 1])
      let ids := (List.range all.length).zip all
      some ⟨m, (List.range m).foldl (fun (a : Array (Nat × Nat)) i =>
        (ids.filter (fun x => x.2 == i + 1)).foldl (fun a x => a ++ Array.replicate (2 ^ i) (x.1, m - i)) a) #[]⟩

/-- The tree at a byte. -/
def hufRead (src : Bytes) (at_ : Nat) : Option (Huf × Nat) := do
  let (ws, p) ← hufWeights src at_
  let t ← hufTable ws
  some (t, p)

/-- n symbols of a stream, which they use up. -/
def hufGo (t : Huf) (src : Bytes) : Nat → Int → Bytes → Option Bytes
  | 0, pos, out => if pos = 0 then some out else none
  | n + 1, pos, out =>
    let r := t.rows.getD (backBits src pos t.bits) (0, 0)
    if pos < r.2 then none else hufGo t src n (pos - r.2) (out.push (BitVec.ofNat 8 r.1))

/-- The n symbols of one stream of bytes. -/
def hufStream (t : Huf) (src : Bytes) (n : Nat) (out : Bytes) : Option Bytes := do
  let pos ← backStart src
  hufGo t src n pos out

/-! ## Blocks (RFC 8878, 3.1.1.2 to 3.1.1.5) -/

/-- What a block leaves to the next one: the tree, the three tables, the three repeated offsets. -/
structure Ctxt where
  huf : Option Huf := none
  ll  : Option Fse := none
  of  : Option Fse := none
  ml  : Option Fse := none
  rep : Nat × Nat × Nat := (1, 4, 8)

/-- Four streams of literals from a byte to an end. -/
def fourStreams (t : Huf) (src : Bytes) (at_ end_ n : Nat) : Option Bytes := do
  let a ← leAt src at_ 2
  let b ← leAt src (at_ + 2) 2
  let c ← leAt src (at_ + 4) 2
  let p := at_ + 6
  let k := (n + 3) / 4
  if end_ < p + a + b + c ∨ n < 3 * k then none
  else do
    let o ← hufStream t (src.extract p (p + a)) k #[]
    let o ← hufStream t (src.extract (p + a) (p + a + b)) k o
    let o ← hufStream t (src.extract (p + a + b) (p + a + b + c)) k o
    hufStream t (src.extract (p + a + b + c) end_) (n - 3 * k) o

/-- The literals section: the literals, the tree that stays, the byte after it. -/
def literals (src : Bytes) (at_ : Nat) (old : Option Huf) : Option (Bytes × Option Huf × Nat) := do
  let b ← (src[at_]?).map (·.toNat)
  let type := b % 4
  let fmt := b / 4 % 4
  if type ≤ 1 then do
    let hl := match fmt with | 1 => 2 | 3 => 3 | _ => 1
    let h ← leAt src at_ hl
    let n := if hl = 1 then h / 8 else h / 16
    let p := at_ + hl
    if type = 0 then (if src.size < p + n then none else some (src.extract p (p + n), old, p + n))
    else do
      let x ← src[p]?
      some (Array.replicate n x, old, p + 1)
  else do
    let hl := match fmt with | 2 => 4 | 3 => 5 | _ => 3
    let w := match fmt with | 2 => 14 | 3 => 18 | _ => 10
    let h ← leAt src at_ hl
    let n := h / 16 % 2 ^ w
    let p := at_ + hl
    let end_ := p + h / 2 ^ (4 + w) % 2 ^ w
    if src.size < end_ then none
    else do
      let part := src.extract 0 end_
      let (t, q) ← if type = 2 then hufRead part p else old.map (fun t => (t, p))
      let lits ← if fmt = 0 then hufStream t (part.extract q end_) n #[] else fourStreams t part q end_ n
      some (lits, some t, end_)

/-- The base and the extra bits of a literals length code and of a match length code. -/
def llCode (c : Nat) : Nat × Nat :=
  if c < 16 then (c, 0)
  else [(16, 1), (18, 1), (20, 1), (22, 1), (24, 2), (28, 2), (32, 3), (40, 3), (48, 4), (64, 6), (128, 7), (256, 8), (512, 9),
    (1024, 10), (2048, 11), (4096, 12), (8192, 13), (16384, 14), (32768, 15), (65536, 16)].getD (c - 16) (0, 0)
def mlCode (c : Nat) : Nat × Nat :=
  if c < 32 then (c + 3, 0)
  else [(35, 1), (37, 1), (39, 1), (41, 1), (43, 2), (47, 2), (51, 3), (59, 3), (67, 4), (83, 4), (99, 5), (131, 7), (259, 8), (515, 9),
    (1027, 10), (2051, 11), (4099, 12), (8195, 13), (16387, 14), (32771, 15), (65539, 16)].getD (c - 32) (0, 0)

/-- The predefined distributions (RFC 8878, 3.1.1.3.2.2). -/
def llDefault : List Int :=
  [4, 3, 2, 2, 2, 2, 2, 2, 2, 2, 2, 2, 2, 1, 1, 1, 2, 2, 2, 2, 2, 2, 2, 2, 2, 3, 2, 1, 1, 1, 1, 1, -1, -1, -1, -1]
def mlDefault : List Int := [1, 4, 3, 2, 2, 2, 2, 2, 2] ++ List.replicate 37 1 ++ List.replicate 7 (-1)
def ofDefault : List Int := [1, 1, 1, 1, 1, 1, 2, 2, 2] ++ List.replicate 15 1 ++ List.replicate 5 (-1)

/-- The table of one kind of code in a block: predefined, one symbol, described here, or the last one again. -/
def codeTable (mode : Nat) (src : Bytes) (at_ dlog : Nat) (dist : List Int) (maxLog maxSym : Nat) (old : Option Fse) : Option (Fse × Nat) :=
  match mode with
  | 0 => (fseTable dlog dist).map (fun t => (t, at_))
  | 1 => (src[at_]?).bind (fun s => if s.toNat ≤ maxSym then some (fseOne s.toNat, at_ + 1) else none)
  | 2 => fseRead src at_ maxLog maxSym
  | _ => old.map (fun t => (t, at_))

/-- The offset that an offset value stands for after a literals length, and the repeated offsets then. -/
def offsetOf (v ll : Nat) (rep : Nat × Nat × Nat) : Nat × (Nat × Nat × Nat) :=
  if 3 < v then (v - 3, (v - 3, rep.1, rep.2.1))
  else match v - 1 + (if ll = 0 then 1 else 0) with
    | 0 => (rep.1, rep)
    | 1 => (rep.2.1, (rep.2.1, rep.1, rep.2.2))
    | 2 => (rep.2.2, (rep.2.2, rep.1, rep.2.1))
    | _ => (rep.1 - 1, (rep.1 - 1, rep.1, rep.2.1))

/-- The sequences of a block: how many are left, the bits left, the three states, the literals used, the output of the frame so far. -/
def sequences (hist src lits : Bytes) (ll of ml : Fse) :
    Nat → Int → Nat → Nat → Nat → Nat → (Nat × Nat × Nat) → Bytes → Option (Bytes × Nat × (Nat × Nat × Nat))
  | 0, pos, _, _, _, used, rep, out => if pos = 0 then some (out, used, rep) else none
  | n + 1, pos, a, b, c, used, rep, out =>
    let oc := of.sym b
    let m := mlCode (ml.sym c)
    let l := llCode (ll.sym a)
    let ov := 2 ^ oc + backBits src pos oc
    let pos := pos - oc
    let mlen := m.1 + backBits src pos m.2
    let pos := pos - m.2
    let llen := l.1 + backBits src pos l.2
    let pos := pos - l.2
    let o := offsetOf ov llen rep
    if pos < 0 ∨ lits.size < used + llen then none
    else
      let out := out ++ lits.extract used (used + llen)
      if o.1 = 0 ∨ hist.size + out.size < o.1 then none
      else
        let out := copyMatch hist o.1 mlen out
        if n = 0 then (if pos = 0 then some (out, used + llen, o.2) else none)
        else
          let x := ll.next src pos a
          let y := ml.next src x.2 c
          let z := of.next src y.2 b
          if z.2 < 0 then none else sequences hist src lits ll of ml n z.2 x.1 z.1 y.1 (used + llen) o.2 out

/-- A compressed block: the output of the frame after it. -/
def zstdBlock (hist src : Bytes) (x : Ctxt) (out : Bytes) : Option (Bytes × Ctxt) := do
  let (lits, huf, p) ← literals src 0 x.huf
  let b ← (src[p]?).map (·.toNat)
  if b = 0 then (if p + 1 = src.size then some (out ++ lits, { x with huf := huf }) else none)
  else do
    let (n, p) ← if b < 128 then some (b, p + 1)
      else if b < 255 then (leAt src (p + 1) 1).map (fun c => ((b - 128) * 256 + c, p + 2))
      else (leAt src (p + 1) 2).map (fun c => (c + 0x7F00, p + 3))
    let modes ← (src[p]?).map (·.toNat)
    if modes % 4 ≠ 0 then none
    else do
      let (ll, p) ← codeTable (modes / 64) src (p + 1) 6 llDefault 9 35 x.ll
      let (of, p) ← codeTable (modes / 16 % 4) src p 5 ofDefault 8 31 x.of
      let (ml, p) ← codeTable (modes / 4 % 4) src p 6 mlDefault 9 52 x.ml
      let s := src.extract p src.size
      let k ← backStart s
      let pos : Int := k
      let a := backBits s pos ll.log
      let pos := pos - ll.log
      let b := backBits s pos of.log
      let pos := pos - of.log
      let c := backBits s pos ml.log
      let pos := pos - ml.log
      if pos < 0 then none
      else do
        let (out, used, rep) ← sequences hist s lits ll of ml n pos a b c 0 x.rep out
        some (out ++ lits.extract used lits.size, { huf := huf, ll := some ll, of := some of, ml := some ml, rep := rep })

/-- The blocks of a frame from a byte: the output and the byte after the last one. -/
def zstdBlocks (hist src : Bytes) (max : Nat) : Nat → Nat → Ctxt → Bytes → Option (Bytes × Nat)
  | 0, _, _, _ => none
  | fuel + 1, at_, x, out => do
    let h ← leAt src at_ 3
    let n := h / 8
    let p := at_ + 3
    let last := h % 2 = 1
    if max < n then none
    else match h / 2 % 4 with
      | 0 =>
        if src.size < p + n then none
        else
          let out := out ++ src.extract p (p + n)
          if last then some (out, p + n) else zstdBlocks hist src max fuel (p + n) x out
      | 1 => do
        let b ← src[p]?
        let out := out ++ Array.replicate n b
        if last then some (out, p + 1) else zstdBlocks hist src max fuel (p + 1) x out
      | 2 => do
        if src.size < p + n then none
        else do
          let (o, y) ← zstdBlock hist (src.extract p (p + n)) x out
          if out.size + max < o.size then none
          else if last then some (o, p + n) else zstdBlocks hist src max fuel (p + n) y o
      | _ => none

/-! ## The content checksum (XXH64) -/

/-- The five primes. -/
def xxP1 : Word := 11400714785074694791
def xxP2 : Word := 14029467366897019727
def xxP3 : Word := 1609587929392839161
def xxP4 : Word := 9650029242287828579
def xxP5 : Word := 2870177450012600261

def xxRound (acc x : Word) : Word := (acc + x * xxP2).rotateLeft 31 * xxP1
def xxMerge (acc v : Word) : Word := (acc ^^^ xxRound 0 v) * xxP1 + xxP4

/-- Eight bytes at a place. -/
def xxWord (b : Bytes) (i : Nat) : Word := BitVec.ofNat 64 ((leAt b i 8).getD 0)

/-- The last bytes: words of 8, then of 4, then bytes. -/
def xxTail (b : Bytes) : Nat → Nat → Word → Word
  | 0, _, h => h
  | fuel + 1, i, h =>
    if i + 8 ≤ b.size then xxTail b fuel (i + 8) ((h ^^^ xxRound 0 (xxWord b i)).rotateLeft 27 * xxP1 + xxP4)
    else if i + 4 ≤ b.size then
      xxTail b fuel (i + 4) ((h ^^^ BitVec.ofNat 64 ((leAt b i 4).getD 0) * xxP1).rotateLeft 23 * xxP2 + xxP3)
    else if i < b.size then xxTail b fuel (i + 1) ((h ^^^ (b.getD i 0).setWidth 64 * xxP5).rotateLeft 11 * xxP1)
    else h

/-- XXH64 with seed 0. -/
def xxh64 (b : Bytes) : Word :=
  let n := b.size / 32
  let lanes := (List.range n).foldl (fun (v : Word × Word × Word × Word) i =>
    (xxRound v.1 (xxWord b (32 * i)), xxRound v.2.1 (xxWord b (32 * i + 8)), xxRound v.2.2.1 (xxWord b (32 * i + 16)),
      xxRound v.2.2.2 (xxWord b (32 * i + 24)))) (xxP1 + xxP2, xxP2, 0, 0 - xxP1)
  let h := if n = 0 then xxP5
    else xxMerge (xxMerge (xxMerge (xxMerge (lanes.1.rotateLeft 1 + lanes.2.1.rotateLeft 7 + lanes.2.2.1.rotateLeft 12 +
      lanes.2.2.2.rotateLeft 18) lanes.1) lanes.2.1) lanes.2.2.1) lanes.2.2.2
  let h := xxTail b (b.size + 1) (32 * n) (h + BitVec.ofNat 64 b.size)
  let h := (h ^^^ (h >>> 33)) * xxP2
  let h := (h ^^^ (h >>> 29)) * xxP3
  h ^^^ (h >>> 32)

/-! ## Frames and dictionaries (RFC 8878, 3.1.1 and 5) -/

/-- A dictionary: its id, what it sets for the first block, its content. One without the magic number is content alone. -/
def dictionary (d : Bytes) : Option (Nat × Ctxt × Bytes) :=
  if leAt d 0 4 ≠ some 0xEC30A437 then some (0, {}, d)
  else do
    let id ← leAt d 4 4
    let (huf, p) ← hufRead d 8
    let (of, p) ← fseRead d p 8 31
    let (ml, p) ← fseRead d p 9 52
    let (ll, p) ← fseRead d p 9 35
    let a ← leAt d p 4
    let b ← leAt d (p + 4) 4
    let c ← leAt d (p + 8) 4
    let rest := d.extract (p + 12) d.size
    if [a, b, c].any (fun x => x == 0 || rest.size < x) then none
    else some (id, { huf := some huf, ll := some ll, of := some of, ml := some ml, rep := (a, b, c) }, rest)

/-- Bytes of a skippable frame at a place; 0 where none stands. -/
def skippable (src : Bytes) (at_ : Nat) : Nat :=
  match leAt src at_ 4, leAt src (at_ + 4) 4 with
  | some m, some n => if m / 16 = 0x184D2A5 ∧ at_ + 8 + n ≤ src.size then 8 + n else 0
  | _, _ => 0

/-- The output of the Zstandard frame at a place, and the place after it. -/
def zstdFrame (dict src : Bytes) (at_ : Nat) : Option (Bytes × Nat) := do
  let magic ← leAt src at_ 4
  let d ← leAt src (at_ + 4) 1
  if magic ≠ 0xFD2FB528 ∨ d / 8 % 2 = 1 then none
  else do
    let single := d / 32 % 2 = 1
    let wd ← if single then some 0 else leAt src (at_ + 5) 1
    let p := if single then at_ + 5 else at_ + 6
    let idLen := match d % 4 with | 3 => 4 | n => n
    let id ← leAt src p idLen
    let p := p + idLen
    let fcsLen := match d / 64 with | 0 => if single then 1 else 0 | 1 => 2 | 2 => 4 | _ => 8
    let fcs ← leAt src p fcsLen
    let size := if fcsLen = 0 then none else some (if fcsLen = 2 then fcs + 256 else fcs)
    let p := p + fcsLen
    let window := if single then size.getD 0 else let base := 2 ^ (10 + wd / 8); base + base / 8 * (wd % 8)
    let (did, x, hist) ← dictionary dict
    if id ≠ 0 ∧ id ≠ did then none
    else do
      let (out, p) ← zstdBlocks hist src (min window (2 ^ 17)) (src.size + 1) p x #[]
      if size.any (· != out.size) then none
      else if d / 4 % 2 = 1 then do
        let sum ← leAt src p 4
        if sum = (xxh64 out).toNat % 2 ^ 32 then some (out, p + 4) else none
      else some (out, p)

/-- What a decompressor makes of source bytes: the output, and how many of them the frame or the block takes. `kind` is 1 for a Zstandard
frame, 2 for an LZ4 block, `olen` the length that the command expects. -/
def decompress (kind : Nat) (dict src : List Byte) (olen : Nat) : Option (List Byte × Nat) :=
  ((if kind = 1 then zstdFrame dict.toArray src.toArray 0 else lz4 src.toArray olen)).map (fun r => (r.1.toList, r.2))

end Sys2Proof.Machine
end

