-- ==== Sys2Proof/Machine/Storage.lean ====
section
/-! DEFINITION. The storage engines (R204 to R208, R395 to R398): NVMe commands on namespaces, decompression, checksums, completion. -/

namespace Sys2Proof.Machine

/-! ## Checksums -/

/-- One bit of a reflected CRC. -/
def crcBit (poly c : Nat) : Nat := if c % 2 = 1 then (c / 2) ^^^ poly else c / 2
/-- One byte. -/
def crcByte (poly c : Nat) (b : Byte) : Nat := (List.range 8).foldl (fun c _ => crcBit poly c) (c ^^^ b.toNat)
/-- A reflected CRC of some bytes with all ones before and after. -/
def crcOf (w poly : Nat) (bs : List Byte) : Nat := (bs.foldl (crcByte poly) (2 ^ w - 1)) ^^^ (2 ^ w - 1)

/-- The checksum of a kind (R207): 1 CRC-32C, 2 the NVMe CRC-64. -/
def checksum (kind : Nat) (bs : List Byte) : Nat :=
  match kind with | 1 => crcOf 32 0x82F63B78 bs | 2 => crcOf 64 0x9A6C9329AC4BC9B5 bs | _ => 0

/-- The global address for whose translation a command waits, its dictionary's among them. The engines translate through the Creamery's
own TLB (R390). -/
def stoFault (s : State) (e : StoCmd) : Option Nat :=
  let s := creameryView s
  let op := stoOp e
  let i := stoIn s e
  let o := stoOut s e
  let d := stoDictSpan e
  if (op = 2 || 4 ≤ op) && (homeRead s e.asid i.1 i.2).isNone then some i.1
  else if (homeRead s e.asid d.1 d.2).isNone then some d.1
  else if (op = 1 || op = 4) && !writableRange s e.asid o.1 o.2 then some o.1
  else none

/-- Is command n submitted: is it for no queue pair, or does it stand in its pair's submission ring (R204, R395)? The ring takes the pair's
commands in push order, and one leaves it with its completion. -/
def inRing (s : State) (n : Nat) (e : StoCmd) : Bool :=
  let same := fun (x : StoCmd) => stoOp x ≤ 3 && fld x.cmd 25 16 == fld e.cmd 25 16
  3 < stoOp e ||
    ((s.pkg.sto.take n).filter same).length + (s.pkg.stoDone.filter (fun d => same d.cmd)).length < max Config.ringSlots 1

/-- May the engines perform command n? -/
def stoReady (s : State) (n : Nat) : Bool :=
  match s.pkg.sto[n]? with | some e => (stoFault s e).isNone && inRing s n e | none => false

/-- A command that its event may perform: number n, with this opcode, submitted, its translations in place. -/
def stoAt (s : State) (n op : Nat) : Option StoCmd :=
  match s.pkg.sto[n]? with
  | some e => if stoOp e == op && stoReady s n then some e else none
  | none => none

/-- Command n has been performed: its completion is to come. -/
def stoFinish (n : Nat) (e : StoCmd) (estat nvst bytes sum : Nat) (s : State) : State :=
  updPkg (fun g => { g with
    sto := removeAt n g.sto
    stoDone := g.stoDone ++ [{ cmd := e, estat := estat, nvst := nvst, bytes := bytes, sum := sum }] }) s

/-- Command n fails: a free part of its output range holds partial output (R208); BYTES, and SUM when none was computed, are
free. -/
def stoFail (n : Nat) (e : StoCmd) (estat nvst : Nat) (sum : Option Nat) (s : State) : State :=
  let f := s.freeCtr
  let o := stoOut s e
  let written := stoOp e = 1 || stoOp e = 4
  let t := if written then (List.range o.2).foldl (fun t i =>
      if Config.partialByte f (o.1 + i) && writableRange t e.asid (o.1 + i) 1 then homeWrite e.asid (o.1 + i) [Config.partialData f (o.1 + i)] t
      else t) s else s
  let sums := stoOp e = 5 || (stoOp e = 1 && stoCk e != 0)
  stoFinish n e estat nvst (if written then Config.partialCount f % 2 ^ 32 else 0)
    (match sum with | some x => x | none => if sums then (Config.freeSum f).toNat else 0) (bump t)

/-- A namespace that a command can use: none names an NVMe error (ESTAT 1), an unsupported format ESTAT 7 (R207). -/
def withSpace (n : Nat) (e : StoCmd) (s : State) (f : Namespace → State) : State :=
  match namespaceOf s e with
  | none => stoFail n e 1 (Config.nvmeStatus s.freeCtr % 2 ^ 16) none s
  | some x => if x.ok then f x else stoFinish n e 7 0 0 0 s

/-! ## Decompression (R207, R396) -/

/-- Source bytes after the skippable frames that they begin with. -/
def afterSkips : Nat → List Byte → List Byte
  | 0, bs => bs
  | k + 1, bs => let n := skippable bs.toArray 0; if n = 0 then bs else afterSkips k (bs.drop n)

/-- Is what follows a frame or a block admissible: skippable frames after a Zstandard frame (kind 1), and zeros where `zeros` allows them
(R207, R396)? -/
def tailOk (kind : Nat) (zeros : Bool) (bs : List Byte) : Bool :=
  let r := if kind = 1 then afterSkips bs.length bs else bs
  r.isEmpty || (zeros && r.all (· == 0))

/-- The bytes of the dictionary. -/
def dictOf (s : State) (e : StoCmd) : List Byte := let d := stoDictSpan e; (homeRead s e.asid d.1 d.2).getD []

/-- What a command expands from its source bytes: the output and the bytes that follow the frame or the block. The frame of an NRD begins
at the first stored byte (R396); skippable frames may stand before that of a ZDEC (R207). -/
def expanded (s : State) (e : StoCmd) (src : List Byte) : Option (List Byte × List Byte) :=
  let src := if stoOp e = 4 ∧ stoDk e = 1 then afterSkips src.length src else src
  (decompress (stoDk e) (dictOf s e) src (fld e.cmd 191 160)).map (fun r => (r.1, src.drop r.2))

/-- The end of a command that expands `src` into its buffer; `sum` is its checksum. A poisoned dictionary fails it (R208). -/
def expand (n : Nat) (e : StoCmd) (zeros : Bool) (src : List Byte) (sum : Nat) (s : State) : State :=
  if homePoisoned s e.asid (stoDictSpan e).1 (stoDictSpan e).2 then stoFail n e 6 0 (some sum) s
  else match expanded s e src with
  | none => stoFail n e 3 0 (some sum) s
  | some (out, rest) =>
    if !tailOk (stoDk e) zeros rest then stoFail n e 3 0 (some sum) s
    else if out.length ≠ fld e.cmd 191 160 then stoFail n e 4 0 (some sum) s
    else stoFinish n e 0 0 out.length sum (homeWrite e.asid (stoBuf e) out s)

/-- Command n is performed by the engines, if it may be: `f` is what it does. -/
def stoStep (n op : Nat) (f : StoCmd → State → State) (s : State) : Host.Outcome State Fault Refusal :=
  .next (match stoAt s n op with | none => s | some e => asCreamery (f e) s)

/-! ## The commands (R207, R396) -/

/-- NRD: the blocks are checked and expanded before a byte of the buffer is written. -/
def execNrd (n : Nat) (s : State) : Host.Outcome State Fault Refusal :=
  stoStep n 1 (fun e s => withSpace n e s (fun x =>
      if !blocksExist x e then stoFail n e 1 (Config.nvmeStatus s.freeCtr % 2 ^ 16) none s
      else
        let p := blockSpan x e
        let bs := readBytes x.data p.1 p.2
        let ck := stoCk e
        let sum := if ck = 0 then 0 else checksum ck bs
        if ck ≠ 0 ∧ sum ≠ fld e.cmd 447 384 then stoFinish n e 2 0 0 sum s
        else if stoDk e = 0 then stoFinish n e 0 0 bs.length sum (homeWrite e.asid (stoBuf e) bs s)
        else expand n e true bs sum s)) s

/-- Change a namespace. -/
def updSpace (x : Namespace) (f : Namespace → Namespace) (s : State) : State :=
  updPkg (fun g => { g with spaces := g.spaces.map (fun y => if y.dev == x.dev && y.nsid == x.nsid then f y else y) }) s

/-- NWR: durable at once with FUA. -/
def execNwr (n : Nat) (s : State) : Host.Outcome State Fault Refusal :=
  stoStep n 2 (fun e s => withSpace n e s (fun x =>
      let p := blockSpan x e
      if !blocksExist x e then stoFail n e 1 (Config.nvmeStatus s.freeCtr % 2 ^ 16) none s
      else if homePoisoned s e.asid (stoBuf e) p.2 then stoFail n e 6 0 none s
      else match homeRead s e.asid (stoBuf e) p.2 with
        | none => s
        | some bs => stoFinish n e 0 0 0 0 (updSpace x (fun y => { y with
            data := writeBytes y.data p.1 bs
            durable := if e.cmd.toNat.testBit 12 then writeBytes y.durable p.1 bs else y.durable }) s))) s

/-- NFL: what the namespace holds becomes durable. -/
def execNfl (n : Nat) (s : State) : Host.Outcome State Fault Refusal :=
  stoStep n 3 (fun e s => withSpace n e s (fun x => stoFinish n e 0 0 0 0 (updSpace x (fun y => { y with durable := y.data }) s))) s

/-- The source bytes of ZDEC and CSUM, when none of them is poisoned. -/
def withSource (n : Nat) (e : StoCmd) (s : State) (f : List Byte → State) : State :=
  let i := stoIn s e
  if homePoisoned s e.asid i.1 i.2 then stoFail n e 6 0 none s
  else match homeRead s e.asid i.1 i.2 with | some bs => f bs | none => s

/-- ZDEC. -/
def execZdec (n : Nat) (s : State) : Host.Outcome State Fault Refusal :=
  stoStep n 4 (fun e s => withSource n e s (fun bs => expand n e false bs 0 s)) s

/-- CSUM; CHKV compares the sum with CHK. -/
def execCsum (n : Nat) (s : State) : Host.Outcome State Fault Refusal :=
  stoStep n 5 (fun e s => withSource n e s (fun bs =>
    let sum := checksum (stoCk e) bs
    stoFinish n e (if e.cmd.toNat.testBit 13 && sum != fld e.cmd 447 384 then 2 else 0) 0 0 sum s)) s

/-! ## Completion (R208, R398) -/

/-- The status slot. -/
def slotBytes (d : StoDone) : List Byte :=
  bytesLE (d.estat % 256 + d.nvst % 65536 * 2 ^ 16 + d.bytes % 2 ^ 32 * 2 ^ 32) 8 ++ bytesLE d.sum 8

/-- The add of a completion. -/
def stoAdd (e : StoCmd) (s : State) : State :=
  updPkg (fun g => { g with adds := g.adds ++ [{ asid := e.asid, va := fld e.cmd 383 320, inc := 1, core := e.core, inst := e.inst,
                                                 stamp := e.stamp }] }) s

/-- Has the slot of a completion its translation? -/
def slotWritable (s : State) (d : StoDone) : Bool := writableRange (creameryView s) d.cmd.asid (stoStat d.cmd) 16

/-- STORAGE_COMPLETION: the slot is written and the counter added to; a slot without translation waits. -/
def execStorageCompletion (n : Nat) (s : State) : Host.Outcome State Fault Refusal :=
  .next (match s.pkg.stoDone[n]? with
    | none => s
    | some d =>
      if slotWritable s d then
        stoAdd d.cmd (asCreamery (homeWrite d.cmd.asid (stoStat d.cmd) (slotBytes d))
          (updPkg (fun g => { g with stoDone := removeAt n g.stoDone }) s))
      else s)

/-- The slot is lost (R208): the add is made, and the pushing activation takes CHFAULT. -/
def slotLost (n : Nat) (d : StoDone) (s : State) : State :=
  pend d.cmd.core d.cmd.stamp d.cmd.inst cCHFAULT (chValue 1 1 1 (stoOp d.cmd)) 15
    (stoAdd d.cmd (updPkg (fun g => { g with stoDone := removeAt n g.stoDone }) s))

/-- COMMAND_TIMEOUT (R398): Klogar aborts NVMe command n, which a controller holds. -/
def execCommandTimeout (n nvst : Nat) (s : State) : Host.Outcome State Fault Refusal :=
  .next (match s.pkg.sto[n]? with
    | some e => if stoOp e ≤ 3 && stoReady s n then stoFail n e 1 (nvst % 2 ^ 16) none s else s
    | none => s)

end Sys2Proof.Machine
end

