-- ==== Sys2Proof/Machine/Ni.lean ====
section
/-! DEFINITION. What travels between cores: counter adds and arms (R184, R193, R235, R288, R294), messages, their queues and stream
items (R191, R229, R238, R338), exports (R239). -/

namespace Sys2Proof.Machine

/-! ## Where an instance's queues stand -/

/-- The save image of an instance displaced from a core (R338). -/
def saveOf (s : State) (k inst : Nat) : Option Save := s.pkg.saves.find? (fun x => x.core == k && x.inst == inst)

/-- Is an instance resident on a core, its image restored? -/
def residentOn (s : State) (k inst : Nat) : Bool := (coreOf s k).resident == some inst && (saveOf s k inst).isNone

/-- Change the image of a displaced instance. -/
def updSave (k inst : Nat) (f : Core → Core) (s : State) : State :=
  updPkg (fun g => { g with saves := g.saves.map (fun x => if x.core == k && x.inst == inst then { x with image := f x.image } else x) }) s

/-- Change what an instance has on a core: on the core itself, or in its image. -/
def updHome (k inst : Nat) (live : Core → Core) (saved : Core → Core) (s : State) : State :=
  if residentOn s k inst then setCore k (live (coreOf s k)) s else updSave k inst saved s

/-- A message that no instance takes goes to Klogar with an error record (R228, R331). -/
def passToKlogar (k : Nat) (m : Msg) (s : State) : State :=
  logErr { inst := hInst m.hdr, core := k, cause := Config.passedCause } (updPkg (fun g => { g with klogar := g.klogar ++ [m] }) s)

/-- The core number that stands for the PKL port, which no core has. -/
def portCore : Nat := 2 ^ 15

/-! ## Counters -/

/-- COUNTER_ADD (R184, R287): add n takes effect, after those of its core to the same counter. -/
def execCounterAdd (n : Nat) (s : State) : Host.Outcome State Fault Refusal :=
  .next (match s.pkg.adds[n]? with
    | none => s
    | some a =>
      if (s.pkg.adds.take n).any (fun b => b.core == a.core && b.asid == a.asid && b.va == a.va) then s
      else applyAdd a (updPkg (fun g => { g with adds := removeAt n g.adds }) s))

/-- The counter store of an address: its home cluster. -/
def storeOf (s : State) (asid va : Nat) : Option Nat := (ctrPage s asid va).map (·.home)

/-- ARM_REGISTRATION (R193, R294): a store holds 1,024 pending arms; an arm whose threshold is met fires at once. -/
def execArmRegistration (n : Nat) (s : State) : Host.Outcome State Fault Refusal :=
  .next (match s.pkg.arms[n]? with
    | none => s
    | some a =>
      if a.registered || (s.pkg.arms.take n).any (fun b => !b.registered && b.core == a.core) then s
      else match storeOf s a.asid a.va with
        | none =>
          armDiscarded a (updPkg (fun g => { g with arms := removeAt n g.arms }) s)
        | some h =>
          let held := s.pkg.arms.filter (fun b => b.registered && storeOf s b.asid b.va == some h)
          if 1024 ≤ held.length then s
          else fireArms a.asid a.va (ctrVal s a.asid a.va)
            (updPkg (fun g => { g with arms := removeAt n g.arms ++ [{ a with registered := true }] }) s))

/-- CWAIT_POLL (R288): a waiting context looks at its counter again, or takes a free entry of the waiter register. -/
def execCwaitPoll (k h : Nat) (s : State) : Host.Outcome State Fault Refusal :=
  .next (withCore k s (fun s =>
    match (ctxAt s h).wait with
    | .cwait va th =>
      if (ctrPage s (asidOf s) va).isSome && th ≤ ctrVal s (asidOf s) va then setCtxAt h endCwait (dropWaiters h s) else asCtx h s (addWaiter va th)
    | _ => s))

/-! ## Messages -/

/-- A message reaches the end of a core's inbound queue, or of its spill queue (R229); an IDLE ends (R108). -/
def arrive (m : Msg) (c : Core) : Core :=
  endIdle (if c.spill.isEmpty && c.inbound.length < 64 then { c with inbound := c.inbound ++ [m] } else { c with spill := c.spill ++ [m] })

/-- The entries that the spill queue of a core holds (R229): Klogar allocates its memory, room for one entry at least. -/
def spillRoom : Nat := Config.spillSlots + 1

/-- The spill queue of an instance on a core has room, or is not needed. -/
def hasRoom (s : State) (k inst : Nat) : Bool :=
  if residentOn s k inst then
    let c := coreOf s k
    (c.spill.isEmpty && c.inbound.length < 64) || c.spill.length < spillRoom
  else match saveOf s k inst with | some x => x.image.spill.length < spillRoom | none => true

/-- Is a core a secondary of an instance (R298)? Its NI accepts an entry from its primary's only (R300). -/
def isShadow (s : State) (k inst : Nat) : Bool :=
  match look inst s.pkg.insts with | some x => x.second.any (fun q => q.2.contains k) | none => false

/-- Does a core take entries of an instance: resident there or displaced, and not as a secondary (R300, R338)? -/
def takesFor (s : State) (k inst : Nat) : Bool := (residentOn s k inst || (saveOf s k inst).isSome) && !isShadow s k inst

/-- A message reaches a core of this package: it is queued for its instance, or refused, or goes to Klogar. -/
def deliver (n : Nat) (f : Flight) (s : State) : State :=
  let inst := hInst f.msg.hdr
  let t := updPkg (fun g => { g with msgs := removeAt n g.msgs }) s
  if !takesFor s f.dest inst then passToKlogar f.dest f.msg t
  else if hasRoom s f.dest inst then updHome f.dest inst (arrive f.msg) (fun c => { c with spill := c.spill ++ [f.msg] }) t
  else updPkg (fun g => { g with msgs := mapAt (fun f => { f with refused := true }) n g.msgs }) s

/-- A message in the form in which it travels between packages: an item with its stream (R190), one that an arm sent for a ready ring
(R193). -/
def payloadOf (f : Flight) : Payload :=
  match f.msg.strm, f.msg.acq with
  | some st, _ => .item st f.dest f.msg.hdr f.msg.t0 f.msg.t1
  | none, some _ => .armed f.dest f.msg.hdr f.msg.t0 f.msg.t1
  | none, none => .message f.dest f.msg.hdr f.msg.t0 f.msg.t1

/-- A message for another package leaves through the port, or is lost: it is returned to Klogar, and so is every later one of its core to
that package (R265, R401). -/
def sendAway (n : Nat) (f : Flight) (s : State) : State :=
  let t := bump (updPkg (fun g => { g with msgs := removeAt n g.msgs }) s)
  let cut := s.pkg.cutOff.contains (f.src, f.pkg)
  if cut || (look f.pkg s.pkg.routes).isNone || Config.remoteRefuses s.freeCtr f.pkg then
    logErr { inst := f.inst, core := f.src, cause := Config.passedCause, detail := f.pkg }
      (updPkg (fun g => { g with cutOff := if cut then g.cutOff else g.cutOff ++ [(f.src, f.pkg)], klogar := g.klogar ++ [f.msg] }) t)
  else updPkg (fun g => { g with flits := g.flits ++ [⟨f.pkg, 0, payloadOf f⟩] }) t

/-- Does a committed copy of the core that goes out to another package precede a message: an earlier one of its context to any package, or of
its core to the same one (R265, R400)? -/
def copyBefore (s : State) (f : Flight) : Bool :=
  (coreOf s f.src).chans.any (fun c => c.q.any (fun e =>
    e.committed && !copyInbound e.cmd && e.seq < f.seq &&
      (match copyRemote e.cmd with | some d => d == f.pkg || e.ctx == f.ctx | none => false)))

/-- Is a core being retired whose cluster has no spare (R413)? Nothing is delivered there. -/
def retiring (s : State) (k : Nat) : Bool :=
  (coreOf s k).dead || (3 ≤ (coreOf s k).suspects && s.pkg.spareUsed.contains (clusterOf k))

/-- May message n leave or arrive before those ahead of it? Here those of one sending context to one core keep their order, and those that
the port has taken in from one source core all do (R191); one to another package follows every earlier one of its context to any other
package, and of its core to the same one (R229, R265). -/
def inTurn (s : State) (n : Nat) (f : Flight) : Bool :=
  let here := s.pkg.pkgId.toNat
  let remote := f.pkg != here
  !(s.pkg.msgs.take n).any (fun g => g.src == f.src &&
      (if remote then g.pkg != here && (g.pkg == f.pkg || g.ctx == f.ctx)
       else g.pkg == f.pkg && (portCore ≤ f.src || (g.ctx == f.ctx && g.dest == f.dest)))) &&
    (if remote then !copyBefore s f
     else !retiring s f.dest && !(s.pkg.msgs.take n).any (fun g => g.recalled && g.dest == f.dest && g.pkg == f.pkg))

/-- A delivery of message n, refused before or not. -/
def deliverNext (again : Bool) (n : Nat) (s : State) : State :=
  match s.pkg.msgs[n]? with
  | none => s
  | some f =>
    if f.refused != again || f.msg.strm.isSome || !inTurn s n f then s
    else if f.pkg = s.pkg.pkgId.toNat then deliver n f s else sendAway n f s

/-- MESSAGE_ARRIVAL (R191, R229). -/
def execMessageArrival (n : Nat) (s : State) : Host.Outcome State Fault Refusal := .next (deliverNext false n s)

/-- DELIVERY_RETRY (R229). -/
def execDeliveryRetry (n : Nat) (s : State) : Host.Outcome State Fault Refusal := .next (deliverNext true n s)

/-- SPILL_REFILL (R229). -/
def execSpillRefill (k : Nat) (s : State) : Host.Outcome State Fault Refusal :=
  .next (withCore k s (fun s => updCore (fun c =>
    match c.spill with
    | m :: ms => if c.inbound.length < 64 then endIdle { c with inbound := c.inbound ++ [m], spill := ms } else c
    | [] => c) s))

/-- Is an emission held at its counter store: the ring of its instance is full, or the instance displaced (R235, R338)? -/
def armHeld (s : State) (f : Flight) : Bool :=
  let inst := hInst f.msg.hdr
  f.pkg == s.pkg.pkgId.toNat && !isShadow s f.dest inst &&
    (if retiring s f.dest then true else if residentOn s f.dest inst then 256 ≤ (coreOf s f.dest).ready.length else (saveOf s f.dest inst).isSome)

/-- May emission n go: it is not held, and no earlier one for its instance on its core waits (R235)? -/
def armReady (s : State) (n : Nat) : Bool :=
  match s.pkg.armOut[n]? with
  | none => false
  | some f =>
    !armHeld s f && !(s.pkg.armOut.take n).any (fun g => g.dest == f.dest && g.pkg == f.pkg && hInst g.msg.hdr == hInst f.msg.hdr)

/-- ARM_EMISSION (R235, R294, R338): the emissions of fired arms reach the ready ring of their core in their order, go out to another
package, or to Klogar where no instance takes them. -/
def execArmEmission (n : Nat) (s : State) : Host.Outcome State Fault Refusal :=
  .next (match s.pkg.armOut[n]? with
    | none => s
    | some f =>
      let t := updPkg (fun g => { g with armOut := removeAt n g.armOut }) s
      if !armReady s n then s
      else if f.pkg ≠ s.pkg.pkgId.toNat then updPkg (fun g => { g with msgs := g.msgs ++ [f] }) t
      else if takesFor s f.dest (hInst f.msg.hdr) then
        setCore f.dest { coreOf s f.dest with ready := (coreOf s f.dest).ready ++ [f.msg] } t
      else passToKlogar f.dest f.msg t)

/-! ## Streams -/

/-- A stage of an instance by its stream id; the newest version's where two versions have it (R386). -/
def stageFor (x : Inst) (strm : Nat) : Option Stage :=
  match x.stages.find? (fun g => g.strm == strm && some g.vtag == x.newest) with
  | some g => some g
  | none => x.stages.find? (fun g => g.strm == strm)

/-- The next index of a stream. -/
def nextIndex (s : State) (inst strm : Nat) : Nat :=
  match s.pkg.streams.find? (fun x => x.1 == inst && x.2.1 == strm) with | some x => x.2.2 | none => 0

/-- ITEM_ASSIGN (R238): the home gives item n its index and sends it to its member. -/
def execItemAssign (n : Nat) (s : State) : Host.Outcome State Fault Refusal :=
  .next (match s.pkg.msgs[n]? with
    | none => s
    | some f =>
      match f.msg.strm with
      | none => s
      | some st =>
        let inst := hInst f.msg.hdr
        let t := updPkg (fun g => { g with msgs := removeAt n g.msgs }) s
        if !inTurn s n f then s
        else if f.pkg ≠ s.pkg.pkgId.toNat then sendAway n f s
        else match (look inst s.pkg.insts).bind (fun x => stageFor x st) with
          | none => passToKlogar f.dest f.msg t
          | some g =>
            let i := nextIndex s inst st
            let k := g.group.getD (i % max g.group.length 1) f.dest
            let h := f.msg.hdr
            let m := { f.msg with hdr := mkHdr i (hCore h) (hPkg h) inst g.type (hVq h) (hG h) (hPri h) (hVt h) }
            let put := fun (c : Core) => { c with items := c.items ++ [{ strm := st, index := i, msg := m }] }
            updHome k inst (fun c => endIdle (put c)) put (updPkg (fun g => { g with
              streams := g.streams.filter (fun x => !(x.1 == inst && x.2.1 == st)) ++ [(inst, st, i + 1)] }) t))

/-- Exports in a forwarding entry. -/
def fwdOf (f : ExpFlight) : FwdState := match f.vals with | some vs => .valid f.item f.strm vs | none => .poison f.item f.strm

/-- Is the slot of an export EMPTY at its member, or the member gone (R239)? -/
def slotEmpty (s : State) (f : ExpFlight) : Bool :=
  if residentOn s f.dest f.inst then (coreOf s f.dest).fwd.getD (f.item % 32) .empty == .empty
  else match saveOf s f.dest f.inst with | some x => x.image.fwd.getD (f.item % 32) .empty == .empty | none => true

/-- EXPORT_ARRIVAL (R239, R323): exports enter an EMPTY slot of the member and of its secondaries. -/
def execExportArrival (n : Nat) (s : State) : Host.Outcome State Fault Refusal :=
  .next (match s.pkg.exps[n]? with
    | none => s
    | some f =>
      if !slotEmpty s f then s
      else
        let put := fun (c : Core) => { c with fwd := mapAt (fun _ => fwdOf f) (f.item % 32) c.fwd }
        let second := match look f.inst s.pkg.insts with | some x => (look f.dest x.second).getD [] | none => []
        (f.dest :: second).foldl (fun t k => updHome k f.inst put put t)
          (updPkg (fun g => { g with exps := removeAt n g.exps }) s))

end Sys2Proof.Machine
end

