-- ==== Sys2Proof/Machine/Launch.lean ====
section
/-! DEFINITION. The dispatcher of a core (R227), which version a message selects (R189, R371 to R373), and the initial state of an
activation and of its replicas (R228, R300). -/

namespace Sys2Proof.Machine

/-! ## Versions (R369 to R373) -/

/-- What a core holds of an instance. -/
def instOn (c : Core) (inst : Nat) : CoreInst := (look inst c.insts).getD {}

/-- Is generation g newer than a core's (R371)? -/
def newerGen (g gen : Nat) : Bool := let d := (g + 16 - gen % 16) % 16; 1 ≤ d && d ≤ 7

/-- The core switches to the STAGED version, if there is one (R371). -/
def switchInst (x : CoreInst) : CoreInst :=
  match x.staged with
  | some v => { x with previous := x.newest, newest := some v, staged := none, gen := (x.gen + 1) % 16 }
  | none => x

def updInst (inst : Nat) (f : CoreInst → CoreInst) (c : Core) : Core := { c with insts := put inst (f (instOn c inst)) c.insts }

/-- What Klogar knows of an instance's roles once a core has switched to version v (R385). -/
def switchedTo (v : Nat) (x : Inst) : Inst :=
  if x.staged == some v then { x with previous := x.newest, newest := some v, staged := none, gen := (x.gen + 1) % 16 } else x

/-- The focal core, with its secondaries, switches an instance to its STAGED version, if it has one (R371); a displaced one in its images
too, whose GEN is the core's. -/
def switchOn (inst : Nat) (s : State) : State :=
  match (instOn s.core inst).staged, look inst s.pkg.insts with
  | some v, some x =>
    (s.core.id :: (look s.core.id x.second).getD []).foldl (fun t j =>
        updSave j inst (updInst inst switchInst) (setCore j (updInst inst switchInst (coreOf t j)) t))
      (updPkg (fun g => { g with insts := put inst (switchedTo v x) g.insts }) s)
  | _, _ => s

/-- The version that a header selects among those resident on a core (R189, R373). -/
def selectVersion (x : CoreInst) (toNewest : Bool) (vq vt : Nat) : Option Nat :=
  let live := (x.newest.toList ++ x.previous.toList).filter (fun t => !x.dead.contains t)
  if vq = 0 || toNewest then x.newest
  else match live.filter (fun t => t % 16 == vt) with | [t] => some t | _ => x.newest

/-! ## The sources (R227, R238) -/

/-- An entry with its source. -/
structure Entry where
  source : Nat
  msg    : Msg
  strm   : Nat := 0xFFFF
  item   : Nat := 0
  deriving DecidableEq, Repr

/-- The stream that source 3 serves next: the first above the last one served that has an item present, wrapping. -/
def nextStream (last : Option Nat) (items : List Item) : Option Nat :=
  let ids := items.map (·.strm)
  match last with
  | none => least ids
  | some l => match least (ids.filter (l < ·)) with | some x => some x | none => least ids

/-- The entry at the head of a source; source 1 is the inbound queue together with its spill queue. An item whose activation returned to PENDING goes before every other one (R225). -/
def headOf (c : Core) (source : Nat) : Option Entry :=
  match source with
  | 1 => (c.inbound ++ c.spill).head?.map (fun m => { source := 1, msg := m })
  | 2 => c.ready.head?.map (fun m => { source := 2, msg := m })
  | _ =>
    match (c.items.find? (·.again)).map (·.strm) <|> nextStream c.disp.last c.items with
    | some st => (c.items.find? (fun i => i.strm == st)).map (fun i => { source := 3, msg := i.msg, strm := st, item := i.index })
    | none => none

/-- Is an entry held: its generation is newer, and nothing is staged (R372)? -/
def heldEntry (c : Core) (inst : Nat) (e : Entry) : Bool :=
  let x := instOn c inst
  newerGen (hG e.msg.hdr) x.gen && x.staged.isNone

/-- The weight of a source. -/
def weightOf (x : Inst) (source : Nat) : Nat := match source with | 1 => x.qwt | 2 => x.rwt | _ => x.swt

/-- The dispatcher's choice from a source with a grant: the entry, and the grant that remains. -/
def choose (c : Core) (inst : Nat) (x : Inst) : Nat → Nat → Nat → Option (Entry × Nat)
  | 0, _, _ => none
  | n + 1, source, grant =>
    let next := choose c inst x n (source % 3 + 1) (weightOf x (source % 3 + 1))
    if grant = 0 then next
    else match headOf c source with
      | some e => if heldEntry c inst e then next else some (e, grant - 1)
      | none => next

/-- Take an entry out of its source. -/
def takeEntry (e : Entry) (c : Core) : Core :=
  match e.source with
  | 1 => { c with inbound := c.inbound.drop 1, spill := if c.inbound.isEmpty then c.spill.drop 1 else c.spill }
  | 2 => { c with ready := c.ready.drop 1 }
  | _ => { c with items := c.items.eraseP (fun i => i.strm == e.strm && i.index == e.item) }

/-! ## The initial state (R228) -/

/-- The window of the control context is cleared and takes its initial values. -/
def initWindow (wsb : Nat) (h : Handler) (gp : Nat) (e : Entry) (c : Core) : Core :=
  let put := fun (n v : Nat) (c : Core) => lsPut 0 (wsb + 8 * n) (bytesLE v 8) c
  let c := lsPut 0 wsb (List.replicate (8 * h.nw) 0) c
  let c := if h.nv = 0 then c else lsPut 0 (wsb + 512) (List.replicate (64 * h.nv) 0) c
  put 0 e.msg.t0.toNat (put 1 e.msg.t1.toNat (put 2 e.item (put 3 (hCore e.msg.hdr) (put 13 gp (put 14 (wsb + 1536 + h.stk) c)))))

/-- The activation of an entry on replica r of a group. -/
def actOf (inst : Nat) (x : Inst) (v : Version) (h : Handler) (group : List Nat) (r actlim : Nat) (e : Entry) : Act :=
  { inst := inst, vtag := v.tag, nw := h.nw, nv := h.nv, stk := h.stk, redm := h.redm, rplc := r,
    group := if h.redm = 0 then [] else group, item := e.item, strm := e.strm, source := e.source, actlim := actlim, trig := e.msg,
    klogar := e.msg.klogar, redeliver := e.msg.toNewest, completed := e.msg.done,
    stage := (x.stages.find? (fun g => g.strm == e.strm && g.vtag == v.tag)).orElse (fun _ => x.stages.find? (fun g => g.strm == e.strm)) }

/-- The revocation that waits for the end of an activation goes on waiting when that one begins again (R331). -/
def keptMark (e : Entry) (inst now : Nat) (z : Slot) : Slot :=
  match e.msg.ran with
  | some n => if z.revoked = some (n, inst) then { z with revoked := some (now, inst) } else z
  | none => z

/-- A core begins an activation: its control context is live at the handler's entry. -/
def beginAct (v : Version) (h : Handler) (a : Act) (e : Entry) (c : Core) : Core :=
  let x0 : Ctx := { live := true, pc := BitVec.ofNat 64 h.entry, wp := BitVec.ofNat 64 v.wsb, flg := flgReset,
                    modv := BitVec.ofNat 16 v.tag, firstSeg := true, replays := e.msg.replays, ueAt := e.msg.ueAt,
                    startPc := BitVec.ofNat 64 h.entry, startWp := BitVec.ofNat 64 v.wsb }
  let d := initWindow v.wsb h v.gp e c
  { d with
    act := some a
    ctxs := x0 :: List.replicate 10 {}
    actCount := d.actCount + 1
    slots := d.slots.map (fun z => (z.1, keptMark e a.inst (d.actCount + 1).toNat z.2))
    tvec := if v.tvec = 0 then d.tvec else BitVec.ofNat 64 v.tvec
    twp := if v.tvec = 0 then d.twp else BitVec.ofNat 64 v.twp }

/-- STARTED of a version rises by 1 (R383). -/
def startCount (x : Inst) (v : Version) (k inst : Nat) (s : State) : State :=
  if v.upc = 0 then s
  else updPkg (fun g => { g with adds := g.adds ++ [{ asid := x.asid, va := v.upc, inc := 1, core := k, inst := inst, stamp := 0 }] }) s

/-- The watchdog limit of an entry's activation (R27, R326). -/
def limitOf (s : State) (x : Inst) (m : Msg) : Nat :=
  match m.req with
  | some (q, _) => (match look q s.pkg.queues with | some y => y.actlim | none => 0)
  | none => x.actlim

/-- The scope of the acquire that a dispatch makes: common to the sender and this core (R191), that of the counter for an arm's
message (R293), the package for a queue request, which the Creamery sends. -/
def acqScope (s : State) (m : Msg) : Nat :=
  match m.acq with
  | some n => n
  | none => if m.req.isSome then 3 else if hPkg m.hdr = s.pkg.pkgId.toNat then scopeOf (hCore m.hdr) s.core.id else 4

/-- The windows of a secondary as a redundant activation begins: where they match the primary's they hold what was filled for these
(R301, R303). -/
def shadowOf (p c : Core) : Core :=
  (List.range 4).foldl (fun c i => match p.wins.getD i none, c.wins.getD i none with
    | some v, some w =>
      if v.va = w.va ∧ v.base = w.base ∧ v.len = w.len then
        updWin i (fun w => { w with shadow := true, valid := v.valid, tagged := [] })
          { c with ls := v.valid.foldl (fun m n => writeBytes m (v.base + 64 * n) (readBytes p.ls (v.base + 64 * n) 64)) c.ls }
      else c
    | _, _ => c) c

/-- The fills of a redundant activation are counted from its beginning (R301). -/
def newFills (c : Core) : Core := { c with wins := c.wins.map (Option.map (fun w => { w with fills := [] })) }

/-- The handler of a version that an entry selects (R228). -/
def handlerFor (x : Inst) (v : Version) (e : Entry) : Option Handler :=
  let type := if e.source = 3 then (match x.stages.find? (fun g => g.strm == e.strm) with | some g => g.type | none => hType e.msg.hdr)
    else hType e.msg.hdr
  v.handlers.find? (fun h => h.type == type)

/-- An entry is dispatched to a handler of a version on the focal core and on its secondaries (R228, R300). -/
def launch (inst : Nat) (x : Inst) (v : Version) (h : Handler) (e : Entry) (s : State) : State :=
  let k := s.core.id
  let group := k :: ((look k x.second).getD []).take h.redm
  let lim := limitOf s x e.msg
  let start := fun (r : Nat) (c : Core) => beginAct v h (actOf inst x v h group r lim e) e c
  let t := startCount x v k inst (updCore (start 0) s)
  everywhere (acquireAt (acqScope s e.msg))
    (if h.redm = 0 then t
     else (List.range (group.length - 1)).foldl (fun t i =>
       let j := group.getD (i + 1) 0
       setCore j (start (i + 1) (newFills (shadowOf s.core (coreOf t j)))) t) (updCore newFills t))

/-- Is every secondary that a replica group of this instance may use free, and none of them to be retired first (R319)? -/
def secondsFree (s : State) (x : Inst) : Bool :=
  ((look s.core.id x.second).getD []).all (fun j => let c := coreOf s j; c.act.isNone && c.suspects < 3 && !c.dead)

/-- May the focal core dispatch: a core of the placement (R300), no activation, the first residence of every member behind it (R233, R340), no
system message pending, its rectangle whole, nothing left to do before its next dispatch (R224, R227, R273, R319, R415)? -/
def mayDispatch (s : State) (inst : Nat) (x : Inst) : Bool :=
  let c := s.core
  x.placement.contains c.id && c.act.isNone && (saveOf s c.id inst).isNone && !c.halted && !c.dead && c.suspects < 3 &&
    x.fresh.isEmpty && !s.pkg.switches.contains (c.id, inst) &&
    !s.pkg.purges.any (fun p => p.inst == inst && p.toMark.contains c.id) && secondsFree s x &&
    !(rectCores (rectangleOf s c.id)).any (fun j => (coreOf s j).mxu.broken)

/-- The dispatcher's position when an entry has been chosen from a source that has `grant` left; `served`: it is dispatched. -/
def dispAt (served : Bool) (e : Entry) (grant : Nat) (d : Disp) : Disp :=
  if served then ⟨e.source, some grant, if e.source = 3 then some e.strm else d.last⟩ else ⟨e.source, some (grant + 1), d.last⟩

/-- DISPATCH (R225, R227, R228, R371 to R373). A message without a handler goes to Klogar and uses no grant. An entry that is newer still than the version that the core switches to is held from then
on (R372). -/
def execDispatch (k : Nat) (s : State) : Host.Outcome State Fault Refusal :=
  .next (withCore k s (fun s =>
    match s.core.resident with
    | none => s
    | some inst =>
      match look inst s.pkg.insts with
      | none => s
      | some x =>
        if !mayDispatch s inst x then s
        else
          let d := s.core.disp
          match choose s.core inst x 4 d.source (d.grant.getD (weightOf x d.source)) with
          | none => s
          | some (e, grant) =>
            let u := if newerGen (hG e.msg.hdr) (instOn s.core inst).gen then switchOn inst s else s
            if newerGen (hG e.msg.hdr) (instOn u.core inst).gen then u
            else
              let t := fun (served : Bool) => updCore (fun c => { takeEntry e c with disp := dispAt served e grant d }) u
              match (selectVersion (instOn u.core inst) e.msg.toNewest (hVq e.msg.hdr) (hVt e.msg.hdr)).bind (fun tag =>
                  (x.versions.find? (fun v => v.tag == tag)).bind (fun v => (handlerFor x v e).map (fun h => (v, h)))) with
              | none => passToKlogar s.core.id e.msg (t false)
              | some (v, h) => launch inst x v h e (t true)))

end Sys2Proof.Machine
end

