-- ==== Sys2Proof/Machine/Vote.lean ====
section
/-! DEFINITION. Redundant execution (R309 to R322): votes, verdicts, repair of a minority replica, instance faults. -/

namespace Sys2Proof.Machine

/-- VOTE (R309): a vote reaches the vote unit. -/
def execVote (n : Nat) (s : State) : Host.Outcome State Fault Refusal :=
  .next (match s.pkg.votes[n]? with
    | none => s
    | some v => updPkg (fun g => { g with votes := removeAt n g.votes, unit := g.unit ++ [v] }) s)

/-- The five parts of a vote (R309); a replica that failed has none. -/
def ballot (v : Vote) : Option (Nat × Nat × Nat × BitVec 64 × BitVec 64) :=
  if 4 ≤ v.kind then none else some (v.ctx, v.addr, v.count, v.ctxsig, v.regsig)

/-- Two votes agree. -/
def agree (v w : Vote) : Bool := (ballot v).isSome && ballot v == ballot w

/-- The votes of one group's context that the unit holds, in the order of the replicas. -/
def ballots (s : State) (group : List Nat) (h : Nat) : List Vote :=
  group.filterMap (fun k => s.pkg.unit.find? (fun v => v.core == k && v.ctx == h && v.group == group))

/-- The unit forgets them. -/
def clearBallots (group : List Nat) (h : Nat) (s : State) : State :=
  updPkg (fun g => { g with unit := g.unit.filter (fun v => !(v.group == group && v.ctx == h)) }) s

/-- The same on every core of a group. -/
def onGroup (group : List Nat) (f : State → State) (s : State) : State := group.foldl (fun t k => withCore k t f) s

/-- The commit of context h of the focal core, with the record taken at its vote; the context goes on past its commit point (R311,
R312). -/
def commitVoted (h : Nat) (s : State) : State :=
  asCtx h s (fun s =>
    let r := (ctx s).cand
    let t := commitSeg id s
    setCtx (fun x => { x with snap := r, cand := none, wait := .none, stage := x.stage + 1 }) t)

/-- After an agreeing verdict of the control context the primary's pending causes are due in every replica (R321). A UE that a replica's
engine has consumed is its own, and fails its next vote (R316). -/
def releaseCauses (group : List Nat) (s : State) : State :=
  let due := match (coreOf s (group.getD 0 0)).act with
    | some a => (a.pending.filter (·.code != cUE)).map (fun c => { c with due := true })
    | none => []
  onGroup group (updAct (fun a => { a with pending := due ++ a.pending.filter (·.code == cUE) })) s

/-- What an agreeing or a majority verdict lets happen. -/
def accept (group : List Nat) (h kind : Nat) (s : State) : State :=
  if kind = 3 then onGroup group (abortAct 2) s
  else
    let t := onGroup group (commitVoted h) s
    if h = 0 then releaseCauses group t else t

/-- The commit point that some votes are about: a replica that has consumed a UE sends none of its address (R309, R316). -/
def votedAt (vs : List Vote) : Nat :=
  match vs.find? (fun v => v.kind < 4) with | some v => v.addr | none => (vs.head?.map (·.addr)).getD 0

/-- An instance fault (R317): the activation ends in every replica, the record names each with its signatures. -/
def instanceFault (group : List Nat) (vs : List Vote) (s : State) : State :=
  let k := group.getD 0 0
  let inst := match (coreOf s k).act with | some a => a.inst | none => 0
  let addr := votedAt vs
  let sigs := match vs[1]? with | some v => v.ctxsig.toNat + v.regsig.toNat * 2 ^ 64 | none => 0
  faultMsg inst k k 0x83 addr
    (logErr { inst := inst, core := k, cause := 4, detail := addr, sigs := sigs, unit := coreUnit k,
              group := vs.map (fun v => (v.core, v.ctxsig.toNat, v.regsig.toNat)) }
      (onGroup group (abortAct 3) s))

/-- A suspect mark in the bank of a core (R319), which counts them in 4 bits; the record holds the old PC of the vote (R409). -/
def suspect (k addr : Nat) (s : State) : State :=
  let c := coreOf s k
  bankErr { unit := coreUnit k, core := k, cause := 5, detail := addr } (setCore k { c with suspects := min (c.suspects + 1) 15 } s)

/-- The shadow windows of a secondary after a rollback: the sectors that the primary's lost by it take the primary's next fill (R301). -/
def alignFills (before after c : Core) : Core :=
  (List.range 4).foldl (fun c i => match before.wins.getD i none, after.wins.getD i none with
    | some u, some v =>
      let lost := u.valid.filter (fun n => !v.valid.contains n)
      updWin i (fun w => { w with
        valid := w.valid.filter (fun n => !lost.contains n)
        fills := w.fills.filter (fun f => !lost.contains f.1) ++ v.fills.filter (fun f => lost.contains f.1) }) c
    | _, _ => c) c

/-- Is a snapshot record that a rollback of context h needs uncorrectable (R408)? -/
def recordLost (h : Nat) (c : Core) : Bool := let x := c.ctxs.getD h {}; x.live && x.snap.isSome && x.snapBad

/-- A mismatch that no majority settles (R315, R316): every replica rolls back; a second one is an instance fault, and so is a record that
cannot be read (R408). -/
def mismatch (group : List Nat) (h : Nat) (vs : List Vote) (s : State) : State :=
  let lead := coreOf s (group.getD 0 0)
  let ue := vs.any (fun v => v.kind == 4)
  let addr := votedAt vs
  let s := (vs.filter (fun v => v.kind == 4)).foldl (fun t v => suspect v.core v.addr t) s
  let again := (lead.ctxs.getD h {}).replays == 1 || group.any (fun k => recordLost h (coreOf s k))
  let t := onGroup group (fun s => rollback h (setCtxAt h (fun x => { x with replays := 1, cand := none }) s)) s
  let t := (group.drop 1).foldl (fun t k => setCore k (alignFills lead (coreOf t (group.getD 0 0)) (coreOf t k)) t) t
  if again then instanceFault group vs (if (coreOf t (group.getD 0 0)).act.isSome then t else s)
  else if ue || (coreOf t (group.getD 0 0)).act.isNone then t
  else onGroup group (updAct (fun a => { a with pending := a.pending ++ [{ code := cMISMATCH, value := addr }] })) t

/-! ## Repair (R318) -/

/-- The bytes of a context's window. -/
def windowRanges (w : Nat × Nat) (wp : Nat) : List (Nat × Nat) := [(wp, 8 * w.1), (wp + 512, 64 * w.2)]

/-- Copy ranges of one local store into another. -/
def copyRangesLs (from_ : Memory) (rs : List (Nat × Nat)) (m : Memory) : Memory :=
  rs.foldl (fun m r => writeBytes m r.1 (readBytes from_ r.1 r.2)) m

/-- A minority replica takes context h as the majority replica m has it, the bytes of its journalled stores and its window; what it has
held and pushed in the segment goes. -/
def repairCtx (h : Nat) (w : Nat × Nat) (m : Core) (c : Core) : Core :=
  let x := m.ctxs.getD h {}
  let d := discardStash (some h) (undoJournal h (dropPushes (some h) c))
  { d with
    ls := copyRangesLs m.ls (windowRanges w x.wp.toNat ++ x.journal.map (fun j => (j.1, j.2.length))) d.ls
    poison := (windowRanges w x.wp.toNat ++ x.journal.map (fun j => (j.1, j.2.length))).foldl (fun p r => unmark r.1 r.2 p) d.poison
    ctxs := mapAt (fun y => { x with leadLog := y.leadLog }) h d.ctxs
    act := d.act.map (fun a => { a with held := a.held.filter (fun e => e.ctx != h) }) }

/-- Insert a copy into a list in push order. -/
def inPushOrder (e : CopyCmd) : List CopyCmd → List CopyCmd
  | [] => [e]
  | x :: xs => if e.seq < x.seq then e :: x :: xs else x :: inPushOrder e xs

/-- The copies that context h of a majority replica has pushed to channel i in the segment, in push order. Of its inbound ones, the first
`n` run on the primary already. -/
def pushedCopies (h i n : Nat) (m : Core) : List CopyCmd :=
  let out : List CopyCmd := (m.chans.getD i {}).q.filter (fun e => e.ctx == h && !e.committed && !e.begun && !copyInbound e.cmd)
  let inb := ((m.inPushes.filter (fun x => x.1 == i && x.2.ctx == h)).map (·.2)).drop n
  inb.foldl (fun l e => inPushOrder e l) out

/-- How many inbound copies of context h's open segment have begun on the primary's channel i: these cannot be undone (R199). -/
def begunCopies (h i : Nat) (c : Core) : Nat :=
  (c.inPushes.filter (fun x => x.1 == i && x.2.ctx == h)).length -
    ((c.chans.getD i {}).q.filter (fun e => e.ctx == h && !e.begun && !e.committed && copyInbound e.cmd)).length

/-- The outputs of a majority replica take the place of a repaired primary's own: held outputs, pushes and tagged stash bytes. `n` gives
how many inbound copies of each channel have begun there. -/
def adopt (h : Nat) (m : Core) (n : Nat → Nat) (c : Core) : Core :=
  let bytes := m.wins.flatMap (fun w => match w with
    | some w => (w.tagged.filter (fun t => t.2 == h)).map (fun t => (t.1, memRead m.ls t.1))
    | none => [])
  let held : List Held := match m.act with | some a => a.held.filter (fun e => e.ctx == h) | none => []
  let seconds := match c.act with | some a => a.group.filter (· != c.id) | none => []
  let d := bytes.foldl (fun c b => lsPut h b.1 [b.2] c) c
  { d with
    act := d.act.map (fun a => { a with held := a.held ++ held.map (fun e => { e with seq := c.sent + e.seq }) })
    sent := c.sent + m.sent
    chans := (List.range 4).map (fun i =>
      let ch := d.chans.getD i {}
      { ch with q := ch.q ++ (pushedCopies h i (n i) m).map (fun e =>
        { e with stamp := c.actCount.toNat, seconds := seconds, seq := c.sent + e.seq }) })
    mxu := { d.mxu with q := d.mxu.q ++ (m.mxu.q.filter (fun e => e.ctx == h && !e.committed && !e.begun)).map (fun e =>
      { e with second := false, stamp := c.actCount.toNat }) }
    pushRel := d.pushRel ++ m.pushRel.filter (fun r => r.1 == h)
    stoHeld := d.stoHeld ++ (m.stoHeld.filter (fun e => e.ctx == h)).map (fun e => { e with core := c.id, stamp := c.actCount.toNat }) }

/-- Repair replica k from the majority replica m (R318, R319). -/
def repair (h : Nat) (primary : Bool) (m k addr : Nat) (s : State) : State :=
  let mc := coreOf s m
  let w := match mc.act with | some a => (a.nw, a.nv) | none => (64, 16)
  let old := coreOf s k
  let c := repairCtx h w mc old
  suspect k addr (trimPins (setCore k (if primary then adopt h mc (fun i => begunCopies h i old) c else c) s))

/-- The replica whose vote another equals, if any, and those outside that majority. -/
def majority (vs : List Vote) : Option (Vote × List Vote) :=
  match vs.find? (fun v => 2 ≤ (vs.filter (fun w => agree v w)).length) with
  | some v => some (v, vs.filter (fun w => !agree v w))
  | none => none

/-- The verdict on a complete set of votes (R312, R315, R318). -/
def judge (group : List Nat) (h : Nat) (vs : List Vote) (s : State) : State :=
  let t := clearBallots group h s
  match vs with
  | [] => s
  | v :: rest =>
    if rest.all (agree v) then accept group h v.kind t
    else if group.length < 3 then mismatch group h vs t
    else match majority vs with
      | none => mismatch group h vs t
      | some (m, minority) =>
        let u := minority.foldl (fun u w => repair h (w.core == group.getD 0 0) m.core w.core (votedAt vs) u) t
        accept group h m.kind u

/-- VERDICT (R311): on the group of vote n, once every replica has voted. -/
def execVerdict (n : Nat) (s : State) : Host.Outcome State Fault Refusal :=
  .next (match s.pkg.unit[n]? with
    | none => s
    | some v =>
      let vs := ballots s v.group v.ctx
      if vs.length = v.group.length then judge v.group v.ctx vs s else s)

/-- Is a core pre-empted, or halted by the debugger (R314)? -/
def paused (c : Core) : Bool := c.halted || preempted c

/-- The vote of a replica that is late, as instance fault records show it: its own signatures so far (R314, R317). -/
def lateVote (s : State) (v : Vote) (k : Nat) : Vote :=
  let c := coreOf s k
  let x := c.ctxs.getD v.ctx {}
  let w := match c.act with | some a => (a.nw, a.nv) | none => (64, 16)
  { v with core := k, kind := 5, ctxsig := ctxSig x.records, regsig := regSig w.1 w.2 (snapOf c.ls x) }

/-- VOTE_TIMEOUT (R314): replicas whose votes the unit lacks count as mismatching; a vote of theirs that is still on its way is void. -/
def execVoteTimeout (n : Nat) (s : State) : Host.Outcome State Fault Refusal :=
  .next (match s.pkg.unit[n]? with
    | none => s
    | some v =>
      if v.group.any (fun k => paused (coreOf s k)) then s
      else
        let late := v.group.filter (fun k => !(ballots s v.group v.ctx).any (fun w => w.core == k))
        let t := updPkg (fun g => { g with
          votes := g.votes.filter (fun w => !(late.contains w.core && w.ctx == v.ctx))
          unit := g.unit ++ late.map (lateVote s v) }) s
        if late.isEmpty then s else judge v.group v.ctx (ballots t v.group v.ctx) t)

end Sys2Proof.Machine
end

