-- ==== Sys2Proof/Machine/CoreEvents.lean ====
section
/-! DEFINITION. Events of one core: an asynchronous trap (R220, R221), an undefined chain (R91, R92), long results (R30), the end of
an IDLE (R108), Klogar's answers to services (R106, R389), the watchdog (R241), accepted write-backs (R245). -/

namespace Sys2Proof.Machine

/-- ASYNC_TRAP (R197, R221, R231): a pending cause cancels a CWAIT or WPWAIT of the control context, whose checks have passed, and an
unmatched arrival at a CPL, and is taken with the instruction's address as old PC. At every other issue of the control context `run` takes it in place of the instruction. -/
def execAsyncTrap (k : Nat) (s : State) : Host.Outcome State Fault Refusal :=
  .next (withCore k s (fun s =>
    if (ctxAt s 0).live && cancellable (ctxAt s 0) && !s.core.halted && !preempted s.core then
      asCtx 0 s (fun s => match asyncDue s with | some c => takeAsync c s | none => s)
    else s))

/-- ILLEGAL_INSTRUCTION (R91 to R93): the issuing context takes ILL. -/
def execIllegalInstruction (e : Ill) (s : State) : Host.Outcome State Fault Refusal := run s (trap cILL (illOf e))

/-- LONG_RESULT_WRITE (R30): the results of context h whose windows are full are written. -/
def execLongResultWrite (k h : Nat) (s : State) : Host.Outcome State Fault Refusal := .next (withCore k s (landDue h))

/-- IDLE_END (R108): an IDLE may end without any of the events that end it. -/
def execIdleEnd (k h : Nat) (s : State) : Host.Outcome State Fault Refusal :=
  .next (withCore k s (setCtxAt h (fun x => if x.wait = .idle then { x with wait := .none } else x)))

/-! ## Services (R106, R389) -/

/-- The rights of a context. -/
def tenantOf (s : State) (asid : Nat) : Tenant := (look asid s.pkg.tenants).getD {}

/-- Do two ranges of physical or virtual addresses meet? A frame is free when no page, none that waits for its invalidation and
no migration holds it. -/
def frameFree (s : State) (frame n : Nat) : Bool :=
  !(s.pkg.pages ++ s.pkg.shoot.filterMap (·.old)).any (fun p => p.remote.isNone && meets frame n p.frame (pageBytes p.size)) &&
    !s.pkg.migrs.any (fun m => meets frame n m.frame (2 ^ 30) && !m.stub)

/-- The invalidation of a page's entries starts; the clusters go on using the old translation until they acknowledge (R392), or are
redirected to the new home (R394). -/
def shootOf (keepOld : Bool) (p : Page) : Shoot := { asid := p.asid, va := p.va, old := some p, moved := !keepOld }

/-- Has a context no page and no counter page in a range, and none whose invalidation is awaited (R392)? -/
def spanFree (s : State) (asid va n : Nat) : Bool :=
  !(s.pkg.pages ++ s.pkg.shoot.filterMap (·.old)).any (fun p => p.asid == asid && meets va n p.va (pageBytes p.size)) &&
    !s.pkg.ctrPages.any (fun p => p.asid == asid && meets va n p.va 4096)

/-- Physical memory is cleared, with its marks and every copy on its way. -/
def clearFrame (frame n : Nat) (k : Package) : Package :=
  { k with
    mem := memClear k.mem frame n
    poison := k.poison.filter (fun g => !(frame ≤ 8 * g && 8 * g < frame + n))
    poisonSec := k.poisonSec.filter (fun g => !(frame ≤ 64 * g && 64 * g < frame + n))
    ccBad := k.ccBad.filter (fun x => !(frame ≤ 8 * x.2 && 8 * x.2 < frame + n))
    cc := k.cc.filter (fun d => !(frame ≤ d.pa && d.pa < frame + n))
    wb := k.wb.map (fun b => { b with bytes := b.bytes.filter (fun x => !(frame ≤ x.1 && x.1 < frame + n)) }) }

/-- A counter page becomes visible to a context, its counters 0 (R286). -/
def addCtrPage (asid va home : Nat) (s : State) : State :=
  updPkg (fun k => { k with
    ctrPages := k.ctrPages ++ [⟨asid, va, home⟩]
    ctrs := k.ctrs.filter (fun c => !(c.asid == asid && va ≤ c.va && c.va < va + 4096)) }) s

/-- May Klogar allocate a counter page there: the quota, eight pages at the store, a free and aligned range (R286, R325)? -/
def ctrPageOk (s : State) (asid va home : Nat) : Bool :=
  (s.pkg.ctrPages.filter (fun p => p.asid == asid)).length < (tenantOf s asid).ctrQuota &&
    (s.pkg.ctrPages.filter (fun p => p.home == home)).length < 8 && va % 4096 == 0 && va < 2 ^ 56 && spanFree s asid va 4096

/-- What a served service does: status, w4, and the state. None: the answer is not one that Klogar can give now. `w` are the
arguments w4 to w11. -/
def serve (y : Nat) (w : List Nat) (a : SvcAnswer) (s : State) : Option (Nat × Nat × State) :=
  let asid := asidOf s
  let t := tenantOf s asid
  let w4 := w.getD 0 0
  let w5 := w.getD 1 0
  let w6 := w.getD 2 0
  let refuse := fun (st : Nat) => some (st, 0, s)
  match y with
  | 0 => some (0, a.addr % 65536 + s.pkg.pkgId.toNat * 2 ^ 16, s)
  | 1 =>
    let home := w4 / 16
    if w4 % 16 ≠ 0 ∨ 2 ^ 14 ≤ w4 then refuse 2
    else if t.ctrQuota ≤ (s.pkg.ctrPages.filter (fun p => p.asid == asid)).length then refuse 1
    else if a.status ≠ 0 ∨ 8 ≤ (s.pkg.ctrPages.filter (fun p => p.home == home)).length then refuse 3
    else if a.addr % 4096 = 0 ∧ a.addr < 2 ^ 56 ∧ spanFree s asid a.addr 4096 then
      some (0, a.addr, addCtrPage asid a.addr home s)
    else none
  | 2 =>
    match s.pkg.ctrPages.find? (fun p => p.asid == asid && p.va == w4) with
    | none => refuse 2
    | some p =>
      let inPage := fun (x : Arm) => x.asid == asid && w4 ≤ x.va && x.va < w4 + 4096
      let u := (s.pkg.arms.filter inPage).foldl (fun u x => armDiscarded x u) s
      some (0, 0, updPkg (fun k => { k with
        ctrPages := k.ctrPages.filter (fun q => !(q.asid == asid && q.va == w4))
        arms := k.arms.filter (fun x => !inPage x)
        freed := k.freed ++ [p] }) u)
  | 3 =>
    let n := pageBytes w5
    if 3 < w5 ∨ 3 < w6 ∨ w4 = 0 ∨ w4 % n ≠ 0 then refuse 2
    else if a.status ≠ 0 ∨ 48 * 2 ^ 30 < w4 then refuse 3
    else if a.addr % n = 0 ∧ a.addr + w4 ≤ 2 ^ 56 ∧ a.frame % n = 0 ∧ spanFree s asid a.addr w4 ∧ frameFree s a.frame w4 then
      some (0, a.addr, updPkg (fun k => clearFrame a.frame w4 { k with
        pages := k.pages ++ (List.range (w4 / n)).map (fun i => { asid := asid, va := a.addr + n * i, size := w5, frame := a.frame + n * i,
                                                                  die := w6, exec := false })
        allocs := k.allocs ++ [(asid, a.addr, w4)] }) s)
    else none
  | 4 =>
    match s.pkg.allocs.find? (fun x => x.1 == asid && x.2.1 == w4) with
    | none => refuse 2
    | some (_, va, n) =>
      let mine := fun (p : Page) => p.asid == asid && va ≤ p.va && p.va < va + n
      some (0, 0, updPkg (fun k => { k with
        pages := k.pages.filter (fun p => !mine p)
        shoot := k.shoot ++ (k.pages.filter mine).map (shootOf true)
        allocs := k.allocs.filter (fun x => !(x.1 == asid && x.2.1 == w4)) }) s)
  | 5 =>
    match s.pkg.pages.find? (fun p => p.asid == asid && p.va == w4 && p.remote.isNone), s.pkg.ctrPages.find? (fun p => p.asid == asid && p.va == w4) with
    | none, none => refuse 2
    | p, q =>
      let die := match p, q with | some p, _ => p.die | none, some q => q.home / 256 | none, none => 0
      if 3 < w5 then refuse 2
      else if s.pkg.migrs.any (fun m => m.asid == asid && m.va == w4) then none
      else if die = w5 then some (0, 0, s)
      else if a.status ≠ 0 then refuse 3 else none
  | 6 =>
    if 15 < w5 ∨ (s.pkg.ports ≠ 0 ∧ s.pkg.ports ≤ w5) then refuse 2
    else if !t.storage then refuse 1
    else if !s.pkg.spaces.any (fun x => x.dev == w5 && x.nsid == w4) then refuse 2
    else if a.status ≠ 0 ∨ 1024 ≤ s.pkg.qps.length then refuse 3
    else if a.addr < 1024 ∧ (look a.addr s.pkg.qps).isNone then
      some (0, a.addr, updPkg (fun k => { k with qps := put a.addr ⟨asid, w5⟩ k.qps }) s)
    else none
  | 7 =>
    match look w4 s.pkg.qps with
    | none => refuse 2
    | some q =>
      let uses := fun (e : StoCmd) => stoOp e ≤ 3 && fld e.cmd 25 16 == w4
      if q.asid ≠ asid then refuse 2
      else if s.pkg.sto.any uses || s.pkg.stoDone.any (fun d => uses d.cmd) then none
      else some (0, 0, updPkg (fun k => { k with qps := Machine.drop w4 k.qps }) s)
  | _ => some (0, 0, updPkg (fun k => { k with svcLog := k.svcLog ++ [(actInst s, w.flatMap (fun x => bytesLE x 8))] }) s)

/-- An answer reaches context h of one core: w4 and w5, and the next instruction. -/
def answered (h status v : Nat) (s : State) : State := asCtx h s (fun s => after {} (setW 4 v (setW 5 status s)))

/-- The code of the service that context h of a core waits for. -/
def svcCode (c : Core) (h : Nat) : Option Nat := match (c.ctxs.getD h {}).wait with | .svc y => some y | _ => none

/-- SVC_ANSWER (R106, R301, R389): once every replica waits at the same service. -/
def execSvcAnswer (k h : Nat) (a : SvcAnswer) (s : State) : Host.Outcome State Fault Refusal :=
  .next (withCore k s (fun s =>
    match svcCode s.core h with
    | none => s
    | some y =>
      if secondary s || (replicas s).any (fun j => svcCode (coreOf s j) h != some y) then s
      else if 9 ≤ y then everywhere (fun s => if s.core.act.isSome then asCtx h s (takeTrap cSVC y) else s) s
      else match asCtx' h s (fun s => serve y ((List.range 8).map (fun i => regW s (4 + i))) a s) with
        | none => s
        | some (st, v, t) => everywhere (answered h st v) t))
where
  /-- The same with a result beside the state. -/
  asCtx' (h : Nat) (s : State) (f : State → Option (Nat × Nat × State)) : Option (Nat × Nat × State) :=
    let c := s.core.cur
    (f { s with core := { s.core with cur := h } }).map (fun r => (r.1, r.2.1, updCore (fun x => { x with cur := c }) r.2.2))

/-! ## Time -/

/-- Has the watchdog count reached ACTLIM (R241)? The primary's decides for a group (R321). -/
def wdogDue (s : State) : Bool :=
  match s.core.act with
  | some a => a.actlim != 0 && a.actlim ≤ a.wdogCount && !secondary s && !preempted s.core && !s.core.halted
  | none => false

/-- WDOG (R220, R221, R226, R241): a second expiry, and one that falls due in trap handling, is an activation fault. -/
def execWdog (k : Nat) (s : State) : Host.Outcome State Fault Refusal :=
  .next (withCore k s (fun s =>
    if !wdogDue s then s
    else match s.core.act with
      | none => s
      | some a =>
        if a.wdogOnce then everywhere (fun s => asCtx 0 s (activationFault 0x82)) s
        else if (ctxAt s 0).inTrap then everywhere (fun s => asCtx 0 s (activationFault 0x81)) s
        else updAct (fun a => { a with wdogCount := 0, wdogOnce := true, pending := a.pending ++ [{ code := cWDOG, value := a.actlim }] }) s))

/-- The physical addresses of a write-back. -/
def backPas (b : Back) : List Nat := b.bytes.map (·.1)

/-- May write-back n be accepted: after an earlier one of its cluster to the same byte, after every earlier one of its cluster where it
belongs to a strong or a rel store (R254, R258), and after the non-temporal stores to its bytes that have left before it (R256)? -/
def backReady (s : State) (n : Nat) : Bool :=
  match s.pkg.wb[n]? with
  | none => false
  | some b =>
    !(s.pkg.wb.take n).any (fun x => clusterOf x.core == clusterOf b.core &&
        (b.ordered || (backPas x).any (fun p => (backPas b).contains p))) &&
      (s.pkg.nts.isEmpty || (ntsTo (focusOn b.core s) (backPas b)).isEmpty)

/-- WRITE_BACK_ACCEPTED (R245): write-back n reaches its home slices. -/
def execWriteBackAccepted (n : Nat) (s : State) : Host.Outcome State Fault Refusal :=
  .next (if backReady s n then acceptBack n s else s)

end Sys2Proof.Machine
end

