-- ==== Sys2Proof/Machine/Fpu.lean ====
section
/-! DEFINITION. The scalar floating-point group (R118 to R122) and LONG pages 0 to 5 (R123). -/

namespace Sys2Proof.Machine

/-- The element type and the rounding mode of a chain: PFX.Q, else f64 and FLG.RM (R52, R89, R118). -/
def fpEt (p : Pre) : Nat := match p.qual with | some q => q.et.toNat | none => 13
def fpMode (p : Pre) (s : State) : Nat :=
  match p.qual with | some q => if q.order = 0 then flgRM s else q.order.toNat | none => flgRM s

/-- Sticky status of the core (R54, R55). -/
def addStatus (st : Nat) (sat : Bool) (s : State) : State :=
  if st = 0 && !sat then s
  else updCore (fun c => { c with fpst := c.fpst ||| BitVec.ofNat 64 st, qstat := c.qstat ||| BitVec.ofNat 64 (b2n sat) }) s

/-- FPINV when NV is set while FLG.FPTE = 1 (R54, R122). -/
def checkInv (s : State) (st : Nat) : Res Unit := need (!(flgFPTE s && bit st 0)) cFPINV 0

/-- Deliver a scalar result in W[a]. -/
def fpResult (p : Pre) (a : BitVec 4) (s : State) (r : FR) : Res State := do
  checkInv s r.st
  .ok (retire p (setW (wA p a) r.val (addStatus r.st r.sat s)))

/-- An operand read in T: its low bits (R118). -/
def fpArg (p : Pre) (x : Nat) : FV := let f := fmtOf (fpEt p); fdec f (x % 2 ^ f.width)

/-- A two-source function on values. -/
def fpBinary (i : Instr) (p : Pre) (a b : BitVec 4) (f : Fmt → Nat → Bool → FV → FV → FR) (s : State) :
    Host.Outcome State Fault Refusal :=
  run s (do
    let x ← twoSrc i s p a b
    fpResult p a s (f (fmtOf (fpEt p)) (fpMode p s) (flgSAT s) (fpArg p x.1) (fpArg p x.2)))

/-- A two-source function on bit patterns that sets no status. -/
def fpPick (i : Instr) (p : Pre) (a b : BitVec 4) (f : Fmt → Nat → Nat → Nat) (s : State) : Host.Outcome State Fault Refusal :=
  run s (do
    let x ← twoSrc i s p a b
    let t := fmtOf (fpEt p)
    .ok (retire p (setW (wA p a) (f t (x.1 % 2 ^ t.width) (x.2 % 2 ^ t.width)) s)))

/-- A one-source function on a bit pattern. -/
def fpUnary (i : Instr) (p : Pre) (a b : BitVec 4) (f : Fmt → Nat → FR) (s : State) : Host.Outcome State Fault Refusal :=
  run s (do
    let x ← oneSrc i s p a b
    let t := fmtOf (fpEt p)
    fpResult p a s (f t (x % 2 ^ t.width)))

/-- `fpu.fadd` (R119). -/
def execFpuFadd (p : Pre) (a b : BitVec 4) (s : State) : Host.Outcome State Fault Refusal :=
  fpBinary (.fpuFadd p a b) p a b fadd s

/-- `fpu.fsub` (R119). -/
def execFpuFsub (p : Pre) (a b : BitVec 4) (s : State) : Host.Outcome State Fault Refusal :=
  fpBinary (.fpuFsub p a b) p a b (fun f m t x y => fadd f m t x y.neg) s

/-- `fpu.fmul` (R119). -/
def execFpuFmul (p : Pre) (a b : BitVec 4) (s : State) : Host.Outcome State Fault Refusal :=
  fpBinary (.fpuFmul p a b) p a b fmul s

/-- `fpu.fma` (R119): W[a] + W[b] × W[c]; PFX.R is required. -/
def execFpuFma (p : Pre) (a b : BitVec 4) (s : State) : Host.Outcome State Fault Refusal :=
  run s (do
    let i := Instr.fpuFma p a b
    need8 p.reg.isSome i
    names s [wA p a, wB p b, cNum p] []
    let f ← forwarded i s (some (wB p b)) (some (cNum p))
    reads s ([wA p a] ++ unreplaced f [wB p b] [cNum p]) []
    fpResult p a s (ffma (fmtOf (fpEt p)) (fpMode p s) (flgSAT s) (fpArg p (regW s (wA p a))) (fpArg p (srcB s f (wB p b)))
      (fpArg p (srcC s f (cNum p)))))

/-- `fpu.fmin` (R119). -/
def execFpuFmin (p : Pre) (a b : BitVec 4) (s : State) : Host.Outcome State Fault Refusal :=
  fpPick (.fpuFmin p a b) p a b fminBits s

/-- `fpu.fmax` (R119). -/
def execFpuFmax (p : Pre) (a b : BitVec 4) (s : State) : Host.Outcome State Fault Refusal :=
  fpPick (.fpuFmax p a b) p a b fmaxBits s

/-- `fpu.fcmp` (R120). -/
def execFpuFcmp (p : Pre) (a b : BitVec 4) (s : State) : Host.Outcome State Fault Refusal :=
  run s (do
    let v ← twoSrcNoDst (.fpuFcmp p a b) s p a b
    let x := fpArg p v.1
    let y := fpArg p v.2
    .ok (retire p (setFlags (fcmpFlags (fless x y) (feq x y) (x.isNan || y.isNan)) s)))

/-- `fpu.fabs` (R119). -/
def execFpuFabs (p : Pre) (a b : BitVec 4) (s : State) : Host.Outcome State Fault Refusal :=
  fpUnary (.fpuFabs p a b) p a b (fun f x => { val := fabsBits f x }) s

/-- `fpu.fneg` (R119). -/
def execFpuFneg (p : Pre) (a b : BitVec 4) (s : State) : Host.Outcome State Fault Refusal :=
  fpUnary (.fpuFneg p a b) p a b (fun f x => { val := fnegBits f x }) s

/-- `fpu.fcvti` (R57, R119). -/
def execFpuFcvti (p : Pre) (a b : BitVec 4) (s : State) : Host.Outcome State Fault Refusal :=
  fpUnary (.fpuFcvti p a b) p a b (fun f x => fToInt true 64 (fpMode p s) (flgSAT s) (fdec f x)) s

/-- `fpu.fcvtf` (R58, R119). -/
def execFpuFcvtf (p : Pre) (a b : BitVec 4) (s : State) : Host.Outcome State Fault Refusal :=
  run s (do
    let x ← oneSrc (.fpuFcvtf p a b) s p a b
    fpResult p a s (intToF (fmtOf (fpEt p)) (fpMode p s) (flgSAT s) (sv x 64)))

/-- `fpu.fcvt` (R56, R119): the source type is c[3:0]; PFX.R is required. -/
def execFpuFcvt (p : Pre) (a b : BitVec 4) (s : State) : Host.Outcome State Fault Refusal :=
  run s (do
    let i := Instr.fpuFcvt p a b
    need8 p.reg.isSome i
    let c := cNum p
    need8 (8 ≤ c && c ≤ 13) i
    let x ← oneSrc i s p a b
    let g := fmtOf c
    fpResult p a s (fconv (fmtOf (fpEt p)) (fpMode p s) (flgSAT s) (fdec g (x % 2 ^ g.width))))

/-- `fpu.fclass` (R121). -/
def execFpuFclass (p : Pre) (a b : BitVec 4) (s : State) : Host.Outcome State Fault Refusal :=
  fpUnary (.fpuFclass p a b) p a b (fun f x => { val := fclass f x }) s

/-- `fpu.frnd` (R119). -/
def execFpuFrnd (p : Pre) (a b : BitVec 4) (s : State) : Host.Outcome State Fault Refusal :=
  fpUnary (.fpuFrnd p a b) p a b (fun f x => frnd f (fpMode p s) x) s

/-- `fpu.fscl` (R119): y is an integer. -/
def execFpuFscl (p : Pre) (a b : BitVec 4) (s : State) : Host.Outcome State Fault Refusal :=
  run s (do
    let x ← twoSrc (.fpuFscl p a b) s p a b
    fpResult p a s (fscale (fmtOf (fpEt p)) (fpMode p s) (flgSAT s) (fpArg p x.1) (sv x.2 64)))

/-! ## The long unit (R123) -/

/-- A long result in W[a] by la. -/
def longResult (p : Pre) (a la : BitVec 4) (v : Nat) (s : State) : State :=
  retire p (pushLong la.toNat { addr := wAddr s (wA p a), bytes := bytesLE v 8, flags := none, left := 0 } s)

/-- An integer division: DIVZ for a zero divisor. -/
def longInt (i : Instr) (p : Pre) (a b l : BitVec 4) (f : Nat → Nat → Nat) (s : State) : Host.Outcome State Fault Refusal :=
  run s (do
    let s := longRoom s
    let x ← twoSrc i s p a b
    need (x.2 != 0) cDIVZ 0
    .ok (longResult p a l (f x.1 x.2) s))

/-- `long.div` (R123): the quotient truncates toward zero. -/
def execLongDiv (p : Pre) (a b l : BitVec 4) (s : State) : Host.Outcome State Fault Refusal :=
  longInt (.longDiv p a b l) p a b l (fun x y => narrow 64 ((sv x 64).tdiv (sv y 64))) s

/-- `long.divn` (R123). -/
def execLongDivn (p : Pre) (a b l : BitVec 4) (s : State) : Host.Outcome State Fault Refusal :=
  longInt (.longDivn p a b l) p a b l (fun x y => x / y) s

/-- `long.rem` (R123): the remainder takes the sign of the dividend. -/
def execLongRem (p : Pre) (a b l : BitVec 4) (s : State) : Host.Outcome State Fault Refusal :=
  longInt (.longRem p a b l) p a b l (fun x y => narrow 64 ((sv x 64).tmod (sv y 64))) s

/-- `long.remn` (R123). -/
def execLongRemn (p : Pre) (a b l : BitVec 4) (s : State) : Host.Outcome State Fault Refusal :=
  longInt (.longRemn p a b l) p a b l (fun x y => x % y) s

/-- `long.fdiv` (R123). -/
def execLongFdiv (p : Pre) (a b l : BitVec 4) (s : State) : Host.Outcome State Fault Refusal :=
  run s (do
    let s := longRoom s
    let x ← twoSrc (.longFdiv p a b l) s p a b
    let r := fdiv (fmtOf (fpEt p)) (fpMode p s) (flgSAT s) (fpArg p x.1) (fpArg p x.2)
    checkInv s r.st
    .ok (longResult p a l r.val (addStatus r.st r.sat s)))

/-- `long.fsqrt` (R123). -/
def execLongFsqrt (p : Pre) (a b l : BitVec 4) (s : State) : Host.Outcome State Fault Refusal :=
  run s (do
    let s := longRoom s
    let x ← oneSrc (.longFsqrt p a b l) s p a b
    let r := fsqrt (fmtOf (fpEt p)) (fpMode p s) (flgSAT s) (fpArg p x)
    checkInv s r.st
    .ok (longResult p a l r.val (addStatus r.st r.sat s)))

end Sys2Proof.Machine
end

