-- ==== Sys2Proof/Machine/Preempt.lean ====
section
/-! DEFINITION. Time-sharing: pre-emption and the save image (R333 to R336, R322), resumption (R337, R338), the scrub and first
residence (R233, R340, R360), Klogar's choice of the resident placement (R332), revocation of slots (R331). -/

namespace Sys2Proof.Machine

/-! ## Stopping -/

/-- The cores of an instance: its placement and the secondaries of its cores (R234, R298, R322). -/
def membersOf (x : Inst) : List Nat := x.placement ++ x.second.flatMap (·.2)

/-- The core stops issue at an issue boundary (R333, steps 1 to 3). -/
def stopIssue (s : State) : State :=
  if preempted s.core then s
  else updAct (fun a => { a with st := .preempted (a.st == .joining) }) (quiesce s)

/-- Is a vote in flight on a core (R322)? -/
def voting (c : Core) : Bool := c.ctxs.any (fun x => x.live && x.wait == .verdict)

/-- May the image of a core be written: no copy command runs and the MXU is at rest (R285, R334)? -/
def quiet (c : Core) : Bool := !c.chans.any (fun ch => ch.q.any (·.begun)) && mxuAtRest c

/-! ## The save image (R334 to R336) -/

/-- The features that have live state in an image (R336). -/
def liveBits (c : Core) : Nat :=
  let red := match c.act with | some a => a.redm != 0 | none => false
  b2n (c.mxu.q.any (fun e => isMma (mOp e.cmd) && mmaB (mOp e.cmd) == 15)) + b2n (c.lut != 0) * 2 +
    b2n (c.ctxs.any (fun x => x.live && repActive x.repst.toNat)) * 4 + b2n (c.fwd.any (· != .empty)) * 8 +
    b2n (red && c.ctxs.any (fun x => x.journal != [])) * 16 +
    b2n (c.mxu.q.any (·.linked) || bufferTiles c.mxu false ++ bufferTiles c.mxu true != []) * 32 + b2n (fld c.mxu.mask 9 8 == 2) * 64 +
    b2n (c.stoHeld.any (fun e => stoDk e != 0)) * 128

/-- The image of a core (R334): inbound messages go to the head of the spill queue (R338), sectors of windows keep only their
tagged bytes. -/
def imageOf (c : Core) : Core :=
  let d := restMxu c
  { d with
    inbound := []
    spill := d.inbound ++ d.spill
    wins := d.wins.map (Option.map (fun w => { w with valid := [] })) }

/-- The save area of an instance on a core takes an image. -/
def saveImage (inst asid : Nat) (c : Core) : Save :=
  { core := c.id, inst := inst, asid := asid, image := imageOf c, live := liveBits c, feat := Config.features, rev := Config.revision }

/-- What stays with a core whatever instance is resident on it. -/
def bare (c : Core) : Core :=
  { id := c.id, slots := c.slots, insts := c.insts, suspects := c.suspects, dead := c.dead, halted := c.halted,
    breakCapture := c.breakCapture, stepCtx := c.stepCtx, icache := c.icache, lastAsid := c.lastAsid, ls := c.ls, poison := c.poison,
    sent := c.sent, injections := c.injections }

/-- The focal core writes back its committed stash bytes, its image is written, and no instance is resident on it; the pins that its
commands held are released (R285). -/
def displace (inst asid : Nat) (s : State) : State :=
  let t := flushNow (fun _ => true) s
  trimPins (updCore bare (updPkg (fun g => { g with saves := g.saves ++ [saveImage inst asid t.core] }) t))

/-- Klogar pre-empts the cores of a placement together (R234, R322, R333): after votes in flight and running clears issue stops on every
one, and once all are quiet the images are written. -/
def preempt (inst : Nat) (x : Inst) (s : State) : State :=
  let ms := membersOf x
  if ms.any (fun k => voting (coreOf s k) || clearing (coreOf s k)) then s
  else
    let t := onGroup ms (fun s => if s.core.act.isSome then stopIssue s else s) s
    if ms.all (fun k => quiet (coreOf t k)) then onGroup ms (displace inst x.asid) t else t

/-- The instance whose image, if any, is restored on a core. -/
def settled (s : State) (k : Nat) : Option (Nat × Inst) :=
  match (coreOf s k).resident with
  | some i => if residentOn s k i then (look i s.pkg.insts).map (fun x => (i, x)) else none
  | none => none

/-- PREEMPTION (R333): of the placement that core k belongs to. -/
def execPreemption (k : Nat) (s : State) : Host.Outcome State Fault Refusal :=
  .next (match settled s k with
    | some (i, x) => if (membersOf x).all (fun j => residentOn s j i) then preempt i x s else s
    | none => s)

/-! ## Resumption (R337, R338) -/

/-- Waits in dead code are cancelled (R381): IDLE, CWAIT, WPWAIT and JOINH issue again and find it dead. -/
def cancelDead (s : State) : State :=
  (List.range 11).foldl (fun t h =>
    let x := ctxAt t h
    let waits := match x.wait with | .idle | .cwait _ _ | .wpwait _ _ | .joinh _ => true | _ => false
    if x.live && waits && deadCode t x.pc.toNat then setCtxAt h (fun y => { y with wait := .none, stage := 0 }) (dropWaiters h t) else t) s

/-- Sections of features that the saving device had and this one lacks are dropped (R337). -/
def dropSections (gone : Nat) (c : Core) : Core :=
  { c with
    lut := if bit gone 1 then 0 else c.lut
    fwd := if bit gone 3 then List.replicate 32 .empty else c.fwd
    mxu := if bit gone 6 then { c.mxu with mask := 0 } else c.mxu }

/-- The core with an image written back: the activation goes on in the state it was in, no window is reopened (R36), waits in IDLE end
(R108), the dispatcher restarts (R227). -/
def restored (sv : Save) (c : Core) : Core :=
  let d := dropSections (sv.feat &&& (255 - Config.features)) sv.image
  endIdle { closeAll d with
    id := c.id
    slots := c.slots
    insts := c.insts
    suspects := c.suspects
    dead := c.dead
    halted := c.halted
    breakCapture := c.breakCapture
    stepCtx := c.stepCtx
    injections := c.injections
    sent := max c.sent d.sent
    icache := c.icache
    resident := some sv.inst
    lastAsid := some sv.asid
    disp := {}
    act := d.act.map (fun a => { a with st := match a.st with | .preempted true => .joining | .preempted false => .running | x => x }) }

/-- Steps 5 and 6 of R340 on the focal core, for the context that was last resident: dirty lines go home, and the counter pages that
it has freed in the core's cluster are set to 0. -/
def scrubShared (s : State) : State :=
  let cl := clusterOf s.core.id
  let gone := fun (p : CtrPage) => p.home == cl && some p.asid == s.core.lastAsid
  updPkg (fun g => { g with
    ctrs := g.ctrs.filter (fun c => !g.freed.any (fun p => gone p && p.asid == c.asid && p.va ≤ c.va && c.va < p.va + 4096) ||
      g.ctrPages.any (fun p => p.asid == c.asid && p.va ≤ c.va && c.va < p.va + 4096))
    freed := g.freed.filter (fun p => !gone p) }) (flushNow (fun _ => true) s)

/-- The image of an instance is restored on the focal core. -/
def restore (inst : Nat) (s : State) : State :=
  match saveOf s s.core.id inst with
  | none => s
  | some sv =>
    let t := if s.core.lastAsid == some sv.asid then s else scrubShared s
    cancelDead (updCore (restored sv)
      (updPkg (fun g => { g with saves := g.saves.filter (fun x => !(x.core == s.core.id && x.inst == inst)) }) t))

/-- The lowest feature of a set of bits. -/
def lowestBit (n : Nat) : Nat := (firstFree (fun i => !bit n i) 0 64).getD 0

/-- RESUMPTION (R234, R322, R337): the images of the placement chosen for core k are restored together; one that needs a feature
the device lacks refuses them. -/
def execResumption (k : Nat) (s : State) : Host.Outcome State Fault Refusal :=
  .next (match (coreOf s k).resident with
    | none => s
    | some inst =>
      match look inst s.pkg.insts with
      | none => s
      | some x =>
        let ms := (membersOf x).filter (fun j => (coreOf s j).resident == some inst && !x.fresh.contains j && (saveOf s j inst).isSome)
        let lacks := fun (j : Nat) => match saveOf s j inst with | some sv => sv.live &&& (255 - Config.features) | none => 0
        match ms.find? (fun j => lacks j != 0) with
        | some j => updPkg (fun g => { g with reports := g.reports ++ [(inst, 1, lowestBit (lacks j))] }) s
        | none => onGroup ms (restore inst) s)

/-! ## First residence (R233, R340, R360) -/

/-- The state of a core after the scrub (R340, steps 1 to 4). -/
def scrubbed (c : Core) : Core := { bare c with ls := [], poison := [], resident := c.resident }

/-- The data blocks of the resident versions of an instance, in the local store of a core (R360). -/
def putData (x : Inst) (c : Core) : Core :=
  x.versions.foldl (fun c v => { c with ls := writeBytes c.ls v.gp v.data }) c

/-- The start message of a member (R233, R421). -/
def startMsg (s : State) (k inst : Nat) (x : Inst) : Msg :=
  let idx := (x.rects.findIdx? (fun r => (rectCores r).contains k)).getD 0
  let r := x.rects.getD idx ⟨k, 0, 0⟩
  { hdr := mkHdr 0 k s.pkg.pkgId.toNat inst 0 0 (genOf (coreOf s k) inst) 0 0
    t0 := BitVec.ofNat 64 (r.origin % 2 ^ 14 + r.nr * 2 ^ 16 + r.nc * 2 ^ 24 + (gridY k - gridY r.origin) * 2 ^ 32 +
      (gridX k - gridX r.origin) * 2 ^ 40 + idx % 256 * 2 ^ 48)
    t1 := BitVec.ofNat 64 (x.rects.length % 2 ^ 16), klogar := true }

/-- The first residence of an instance on the focal core: scrub, data blocks, MLINK, start message, and what has come for it since it was
installed, displaced or resident. -/
def firstResidence (inst : Nat) (x : Inst) (s : State) : State :=
  let k := s.core.id
  let m := startMsg s k inst x
  let t := scrubShared s
  let kept := match saveOf t k inst with | some sv => sv.image | none => t.core
  let link := match rectOf x.rects k with | some r => linkIn r k | none => 0
  let own := x.placement.contains k
  updCore (fun c =>
    let d := putData x (scrubbed c)
    { d with
      lastAsid := some x.asid
      inbound := if own then [m] else []
      spill := kept.inbound ++ kept.spill
      ready := kept.ready
      items := kept.items
      fwd := kept.fwd
      mxu := { d.mxu with link := link } })
    (updPkg (fun g => { g with
      saves := g.saves.filter (fun y => !(y.core == k && y.inst == inst))
      insts := put inst { x with fresh := x.fresh.filter (· != k) } g.insts }) t)

/-- SCRUB (R340). -/
def execScrub (k inst : Nat) (s : State) : Host.Outcome State Fault Refusal :=
  .next (withCore k s (fun s =>
    match look inst s.pkg.insts with
    | some x => if s.core.resident == some inst && x.fresh.contains k && s.core.act.isNone then firstResidence inst x s else s
    | none => s))

/-! ## Klogar's choice (R332) -/

/-- Has a queue work: a request that is not completed? -/
def queueBusy (s : State) (q : Queue) : Bool := ctrVal s q.asid q.compl < ctrVal s q.asid q.door

/-- The priority of an instance: the highest of the queues that bind it and have work; where none has, of all that bind it
(notes/assumptions/83.md). -/
def priOf (s : State) (inst : Nat) : Nat :=
  let mine := s.pkg.queues.filter (fun q => q.2.inst == inst)
  let busy := mine.filter (fun q => queueBusy s q.2)
  ((if busy.isEmpty then mine else busy).map (fun q => q.2.pri)).foldl max 0

/-- Has a core, or an image of one, work for its instance? -/
def coreBusy (c : Core) : Bool := c.act.isSome || c.inbound != [] || c.spill != [] || c.ready != [] || c.items != []

/-- Has an instance work (R332)? -/
def hasWork (s : State) (inst : Nat) (x : Inst) : Bool :=
  x.fresh != [] || (membersOf x).any (fun k => match saveOf s k inst with
    | some sv => coreBusy sv.image
    | none => (coreOf s k).resident == some inst && coreBusy (coreOf s k)) ||
  s.pkg.armOut.any (fun f => hInst f.msg.hdr == inst) ||
  s.pkg.queues.any (fun q => q.2.inst == inst && ctrVal s q.2.asid q.2.taken < ctrVal s q.2.asid q.2.door)

/-- Do the cores of two instances meet? -/
def sharesCore (x y : Inst) : Bool := (membersOf x).any (fun k => (membersOf y).contains k)

/-- How long an instance has been displaced: the place of its first image, the longest first. -/
def displacedRank (s : State) (inst : Nat) : Option Nat := s.pkg.saves.findIdx? (·.inst == inst)

/-- Is an instance the one that Klogar chooses: displaced with work, no other displaced one with work goes before it, and no
resident one with work has a higher priority? -/
def chosen (s : State) (inst : Nat) (x : Inst) : Bool :=
  let p := priOf s inst
  let rank := fun (i : Nat) => (displacedRank s i).getD (2 ^ 64)
  hasWork s inst x && (membersOf x).all (fun k => (coreOf s k).resident != some inst) &&
    s.pkg.insts.all (fun y => y.1 == inst || !sharesCore x y.2 || !hasWork s y.1 y.2 ||
      (if y.2.placement.any (fun k => (coreOf s k).resident == some y.1) then priOf s y.1 ≤ p
       else priOf s y.1 < p || (priOf s y.1 == p && rank inst < rank y.1)))

/-- An instance becomes resident on its cores when all of them are free. -/
def reside (inst : Nat) (x : Inst) (s : State) : State :=
  if (membersOf x).all (fun k => (coreOf s k).resident.isNone) then
    (membersOf x).foldl (fun t k => setCore k { coreOf t k with resident := some inst } t) s
  else s

/-- QUANTUM_EXPIRY (R332): the chosen placement takes its cores; the placements there are pre-empted first. -/
def execQuantumExpiry (k inst : Nat) (s : State) : Host.Outcome State Fault Refusal :=
  .next (match look inst s.pkg.insts with
    | none => s
    | some x =>
      if !(membersOf x).contains k || !chosen s inst x then s
      else
        let away := s.pkg.insts.filter (fun y => y.1 != inst && (membersOf y.2).any (fun j =>
          (membersOf x).contains j && (coreOf s j).resident == some y.1))
        reside inst x (away.foldl (fun t y =>
          if (membersOf y.2).all (fun j => residentOn t j y.1) then preempt y.1 y.2 t else t) s))

/-! ## Slots -/

/-- SLOT_REVOCATION (R331): at once without a running activation, else at its end. -/
def execSlotRevocation (k slot : Nat) (s : State) : Host.Outcome State Fault Refusal :=
  .next (withCore k s (updCore (fun c => { c with
    slots := if c.act.isNone then Machine.drop slot c.slots
      else c.slots.map (fun x => if x.1 = slot then (x.1, { x.2 with revoked := some (c.actCount.toNat, (c.act.map (·.inst)).getD 0) }) else x) })))

end Sys2Proof.Machine
end

