-- ==== Sys2Proof/Machine/Queue.lean ====
section
/-! DEFINITION. The queue engine (R326 to R329): it takes requests and delivers them as messages, or completes them. -/

namespace Sys2Proof.Machine

/-- A request entry as a number. -/
def reqField (e hi lo : Nat) : Nat := bits e hi lo

/-- Is an entry well formed (R327, R328)? -/
def reqOk (e : Nat) : Bool :=
  reqField e 7 0 == 1 && reqField e 37 8 == 0 && reqField e 127 64 == 0 && reqField e 511 320 == 0 && reqField e 49 48 != 3

/-- The messages queued on a core. -/
def queuedOn (s : State) (k : Nat) : Nat := (coreOf s k).inbound.length + (coreOf s k).spill.length

/-- The core with the fewest queued messages, the lowest id among equals. -/
def fewest (s : State) : List Nat → Option Nat
  | [] => none
  | k :: ks => match fewest s ks with
    | none => some k
    | some j => if queuedOn s k < queuedOn s j || (queuedOn s k == queuedOn s j && k < j) then some k else some j

/-- The destination of a request (R327, R328). -/
def reqDest (s : State) (q : Queue) (x : Inst) (e : Nat) : Option Nat :=
  match reqField e 49 48 with
  | 0 => let k := reqField e 63 50; if q.mask.contains k && x.placement.contains k then some k else none
  | 1 => if x.owners.isEmpty then none else x.owners[ownerIndex (reqField e 191 128) x.owners.length]?
  | _ => fewest s (x.placement.filter (fun k => q.mask.contains k))

/-- The message of a request (R328). -/
def reqMsg (s : State) (qid k : Nat) (q : Queue) (e : Nat) : Msg :=
  { hdr := mkHdr 0 qid s.pkg.pkgId.toNat q.inst (reqField e 47 38) 0 (genOf (coreOf s k) q.inst) 3 0
    t0 := BitVec.ofNat 64 (reqField e 191 128), t1 := BitVec.ofNat 64 (reqField e 255 192)
    req := some (qid, BitVec.ofNat 64 (reqField e 319 256)) }

/-- Is queue qid within its context's quota of queues and ring bytes, counted in the order of their numbers (R325)? Klogar keeps no
queue beyond it. -/
def withinQuota (s : State) (qid : Nat) (q : Queue) : Bool :=
  let t := tenantOf s q.asid
  let mine := s.pkg.queues.filter (fun r => r.2.asid == q.asid && r.1 ≤ qid)
  mine.length ≤ t.queueQuota && (mine.map (fun r => 96 * 2 ^ r.2.n)).foldl (· + ·) 0 ≤ t.ringQuota

/-- May the engine take the next request of a queue (R327)? -/
def mayTake (s : State) (qid : Nat) (q : Queue) (x : Inst) : Bool :=
  let i := ctrVal s q.asid q.taken
  withinQuota s qid q && i < ctrVal s q.asid q.door && i + 1 ≤ ctrVal s q.asid q.cons + 2 ^ q.n && x.placement.all (fun k => residentOn s k q.inst)

/-- QUEUE_TAKE (R327 to R329). The engine's translations are the Creamery's own (R390). -/
def execQueueTake (qid : Nat) (s : State) : Host.Outcome State Fault Refusal :=
  .next (asCreamery (fun s => match look qid s.pkg.queues with
    | none => s
    | some q =>
      match look q.inst s.pkg.insts with
      | none => s
      | some x =>
        if !mayTake s qid q x then s
        else
          let i := ctrVal s q.asid q.taken
          match homeRead s q.asid (q.ring + 64 * (i % 2 ^ q.n)) 64 with
          | none => s
          | some bs =>
            let e := numLE bs
            let tag := BitVec.ofNat 64 (reqField e 319 256)
            let t := applyAdd { asid := q.asid, va := q.taken, inc := 1, core := s.core.id, inst := q.inst, stamp := 0 } s
            if !reqOk e then completeReq qid tag 4 0 0 0 t
            else match reqDest s q x e with
              | none => completeReq qid tag 5 0 0 0 t
              | some k =>
                updPkg (fun g => { g with msgs := g.msgs ++ [{
                  msg := reqMsg s qid k q e, src := 2 ^ 14 + qid, ctx := 0, dest := k, pkg := g.pkgId.toNat, inst := q.inst }] }) t) s)

end Sys2Proof.Machine
end

