-- ==== Sys2Proof/Machine/Upgrade.lean ====
section
/-! DEFINITION. Live upgrade (R369 to R385): switching, PURGE (R214, R380, R381), completion and removal; the end of an instance
(R294). -/

namespace Sys2Proof.Machine

/-! ## Switching (R371, R385) -/

/-- VERSION_SWITCH (R371): the switch message for core k; a displaced instance is served as well. -/
def execVersionSwitch (k inst : Nat) (s : State) : Host.Outcome State Fault Refusal :=
  .next (
    if s.pkg.switches.contains (k, inst) then
      withCore k (updPkg (fun g => { g with switches := g.switches.filter (· != (k, inst)) }) s) (switchOn inst)
    else s)

/-- SWITCH_REQUEST (R385): a switch message goes to every core that has the version staged. -/
def execSwitchRequest (inst : Nat) (s : State) : Host.Outcome State Fault Refusal :=
  .next (match look inst s.pkg.insts with
    | none => s
    | some x =>
      if x.staged.isNone then s
      else
        let ks := x.placement.filter (fun k => (instOn (coreOf s k) inst).staged.isSome && !s.pkg.switches.contains (k, inst))
        updPkg (fun g => { g with switches := g.switches ++ ks.map (fun k => (k, inst)) }) s)

/-! ## Removal -/

/-- A version and what it holds leave an instance: its image and pages, its pins and stages; what each core holds changes by f. -/
def removeVersion (inst : Nat) (x : Inst) (tag : Nat) (f : CoreInst → CoreInst) (s : State) : State :=
  let v := (x.versions.find? (fun v => v.tag == tag)).getD { tag := tag }
  let inImage := fun (va : Nat) => v.base ≤ va && va < v.base + v.size
  let gone := fun (p : Page) => p.asid == x.asid && inImage p.va && v.size != 0
  let others := s.pkg.insts.flatMap (fun y => if y.2.asid = x.asid then
    (y.2.versions.filter (fun w => !(y.1 == inst && w.tag == tag))).flatMap (·.pins) else [])
  let unpin := fun (q : Nat × Nat × Nat) => q.2.1 == x.asid && v.pins.contains (q.1, q.2.2) && !others.contains (q.1, q.2.2)
  let t := updPkg (fun g => { g with
    pages := g.pages.filter (fun p => !gone p)
    shoot := g.shoot ++ (g.pages.filter gone).map (shootOf true)
    images := g.images.filter (fun i => i.own != some (inst, tag))
    pins := g.pins.filter (fun q => !unpin q)
    insts := put inst { x with
      versions := x.versions.filter (fun w => w.tag != tag)
      stages := x.stages.filter (fun w => w.vtag != tag) } g.insts }) s
  (membersOf x).foldl (fun t k => setCore k (updInst inst f (coreOf t k)) t) t

/-- UNSTAGE_REQUEST (R385): refused once any core has switched or a switch message is on its way. -/
def execUnstageRequest (inst : Nat) (s : State) : Host.Outcome State Fault Refusal :=
  .next (match look inst s.pkg.insts with
    | none => s
    | some x =>
      match x.staged with
      | none => s
      | some v =>
        if s.pkg.switches.any (fun p => p.2 == inst) || x.placement.any (fun k => (instOn (coreOf s k) inst).staged != some v) then s
        else removeVersion inst { x with staged := none } v (fun c => { c with staged := none }) s)

/-- Is the upgrade complete (R384): the new version newest everywhere, a PURGE returned, ENDED equal to STARTED? -/
def upgradeDone (s : State) (inst : Nat) (x : Inst) (p : Version) : Bool :=
  x.purged && x.placement.all (fun k => (instOn (coreOf s k) inst).newest == x.newest) &&
    (p.upc == 0 || ctrVal s x.asid (p.upc + 8) == ctrVal s x.asid p.upc)

/-- VERSION_REMOVAL (R384). -/
def execVersionRemoval (inst : Nat) (s : State) : Host.Outcome State Fault Refusal :=
  .next (match look inst s.pkg.insts with
    | none => s
    | some x =>
      match x.previous.bind (fun t => x.versions.find? (fun v => v.tag == t)) with
      | none => s
      | some p =>
        if upgradeDone s inst x p then
          removeVersion inst { x with previous := none, purged := false } p.tag
            (fun c => { c with previous := none, dead := c.dead.filter (· != p.tag) }) s
        else s)

/-! ## PURGE (R214, R380) -/

/-- Has a core a version to purge: a previous one that is not DEAD, or a newest one that a switch makes previous (R380)? -/
def purgeable (c : CoreInst) : Bool := c.previous.any (fun v => !c.dead.contains v) || c.staged.isSome

/-- The marks of a PURGE start for every core of the placement. -/
def startPurge (inst tag : Nat) (x : Inst) (s : State) : State :=
  updPkg (fun g => { g with purges := g.purges ++ [{
    inst := inst, tag := tag, core := s.core.id, ctx := s.core.cur, toMark := x.placement, toAck := x.placement }] }) s

/-- The end of PURGE: its record goes. -/
def endPurge (inst : Nat) (x : Inst) (s : State) : State :=
  updPkg (fun g => { g with
    purges := g.purges.filter (fun r => !(r.core == s.core.id && r.ctx == s.core.cur))
    insts := put inst { x with purged := true } g.insts }) s

/-- The scope of the acquire of the adds to STARTED that ends a PURGE (R380). -/
def purgeScope (tag : Nat) (x : Inst) (s : State) : Nat :=
  ctrScope s x.asid (match x.versions.find? (fun v => v.tag == tag) with | some v => v.upc | none => 0)

/-- `xfer.purge` (R214, R380): the checks, a commit point with a release at cluster scope, then (part 4 on) the wait for every
core's acknowledgement. A secondary goes on when its primary has (R301). -/
def execXferPurge (p : Pre) (b : BitVec 4) (s : State) : Host.Outcome State Fault Refusal :=
  runFlushed s (fun s =>
    let i := Instr.xferPurge p b
    let inst := actInst s
    let x := (look inst s.pkg.insts).getD { asid := 0 }
    inParts s (do
      let v ← oneSrcNoDst i s p b
      let ci := coreInst s
      need8 (v < 2 ^ 16) i
      need8 (ci.previous = some v && !ci.dead.contains v && ci.newest != some v) i
      need8 (x.placement.all (fun k => purgeable (instOn (coreOf s k) inst))) i
      need ((look x.asid s.pkg.tenants).getD {}).upgrade cPRIV v
      .ok [v]) (fun o => do
      let v := o.getD 0 0
      if stageOf s ≤ 3 then
        .ok (released false 0 (after p) 1 (fun t =>
          holdMid (if secondary t then setStage 4 (block .leader t) else setStage 4 (block .purge (startPurge inst v x t)))) s)
      else do
        let r ← leaderRead s (fun s => (0, s))
        acquire (purgeScope v x s) (retire p (if secondary s then r.2 else endPurge inst x r.2))))

/-- PURGE_MARK (R371, R380, R381): core k switches if it has not, marks the version dead, and its waits in dead code end. -/
def execPurgeMark (k inst : Nat) (s : State) : Host.Outcome State Fault Refusal :=
  .next (match s.pkg.purges.find? (fun r => r.inst == inst && r.toMark.contains k) with
    | none => s
    | some r =>
      let t := updPkg (fun g => { g with purges := g.purges.map (fun q => if q = r then
        { q with toMark := q.toMark.filter (· != k) } else q) }) s
      let t := withCore k t (fun s => switchOn inst s)
      let second := match look inst t.pkg.insts with | some x => (look k x.second).getD [] | none => []
      let mark := fun (s : State) =>
        let u := updCore (updInst inst (fun c => { c with dead := if c.dead.contains r.tag then c.dead else c.dead ++ [r.tag] })) s
        if (u.core.act.map (·.inst)) == some inst && !secondary u then cancelDead u else u
      onGroup (k :: second) mark t)

/-- PURGE_ACK (R380): core k has acknowledged once its adds to STARTED from before the mark have been performed. -/
def execPurgeAck (k inst : Nat) (s : State) : Host.Outcome State Fault Refusal :=
  .next (match s.pkg.purges.find? (fun r => r.inst == inst && r.toAck.contains k && !r.toMark.contains k) with
    | none => s
    | some r =>
      let upc := match (look inst s.pkg.insts).bind (fun x => x.versions.find? (fun v => v.tag == r.tag)) with
        | some v => v.upc
        | none => 0
      if upc != 0 && s.pkg.adds.any (fun a => a.core == k && a.va == upc && a.asid == asidOfInst s inst) then s
      else updPkg (fun g => { g with purges := g.purges.map (fun q => if q = r then
        { q with toAck := q.toAck.filter (· != k) } else q) }) s)

/-! ## The end of an instance (R294, R331) -/

/-- A core forgets an instance: its activation stops, its sources go, no instance is resident; slots that were revoked while one of its
activations ran go (R331). -/
def evict (inst : Nat) (s : State) : State :=
  let t := if (s.core.act.map (·.inst)) == some inst then stopAct 2 s else s
  let c := t.core
  let d := if c.resident == some inst then { emptyMxu (bare c) with lastAsid := c.lastAsid } else c
  { t with core := { d with
      insts := Machine.drop inst d.insts
      slots := d.slots.filter (fun x => x.2.revoked.map (·.2) != some inst) } }

/-- INSTANCE_DESTROY (R294): its versions are removed, and its unfired arms discarded with records to its controller. -/
def execInstanceDestroy (inst : Nat) (s : State) : Host.Outcome State Fault Refusal :=
  .next (match look inst s.pkg.insts with
    | none => s
    | some x =>
      let t := onGroup (membersOf x) (evict inst) s
      let t := x.versions.foldl (fun t v => match look inst t.pkg.insts with
        | some y => removeVersion inst y v.tag id t
        | none => t) t
      let t := updPkg (fun g => { g with insts := Machine.drop inst g.insts }) t
      let t := (t.pkg.arms.filter (fun a => a.inst == inst)).foldl (fun t a => armDiscarded a t) t
      let t := (membersOf x).foldl (fun t k => setCore k { coreOf t k with insts := Machine.drop inst (coreOf t k).insts } t) t
      updPkg (fun g => { g with
        arms := g.arms.filter (fun a => a.inst != inst)
        saves := g.saves.filter (fun y => y.inst != inst)
        streams := g.streams.filter (fun y => y.1 != inst)
        switches := g.switches.filter (fun y => y.2 != inst)
        purges := g.purges.filter (fun y => y.inst != inst) }) t)

end Sys2Proof.Machine
end

