-- ==== Sys2Proof/Machine/Translate.lean ====
section
/-! DEFINITION. Translation and global memory in the hands of Klogar and of the device: TLB misses (R390), faults (R391, R393, R422),
shootdowns (R392), migration (R394), stash fills (R133, R243, R301), non-temporal stores (R246), evictions (R245). -/

namespace Sys2Proof.Machine

/-- The address space that a core runs in. -/
def asidOn (s : State) (c : Core) : Nat := match c.act with | some a => asidOfInst s a.inst | none => 0

/-- The window, sector and global address of a stash fill. -/
def fillPlace (c : Core) (a : Nat) : Option (Nat × Nat × Nat) :=
  (winAt c a).map (fun (i, w) => (i, sectorOf w a, w.va + 64 * sectorOf w a))

/-! ## Faults that wait (R391, R422) -/

/-- Who waits for a translation, and at which address. -/
inductive Site
  | ctx (k h va : Nat)
  | mxu (k va : Nat)
  | chan (k ch va : Nat)
  | nt (n va : Nat)
  | sto (n va : Nat)
  | slot (n va : Nat)
  deriving DecidableEq, Repr

/-- A secondary takes the primary's bytes: it has no faults of its own. -/
def isSecond (c : Core) : Bool := match c.act with | some a => a.redm != 0 && a.rplc != 0 | none => false

/-- Data faults of the contexts of a core, whose cluster translates them (R392). -/
def ctxSites (s : State) (k : Nat) : List Site :=
  let s := focusOn k s
  let c := coreOf s k
  if isSecond c then []
  else (List.range 11).filterMap (fun h =>
    match (c.ctxs.getD h {}).wait with
    | .fill a => match fillPlace c a with
      | some (_, _, va) => if (clusterRead s (clusterOf k) (asidOn s c) va 64).isNone then some (.ctx k h va) else none
      | none => none
    | .dataFault va => if writableRange s (asidOn s c) va 1 then none else some (.ctx k h va)
    | _ => none)

/-- Faults of the MXU of a core: of its skimmer, and of a global output. -/
def mxuSites (s : State) (k : Nat) : List Site :=
  let s := focusOn k s
  let c := coreOf s k
  let skim := [false, true].filterMap (fun b => match skimNext c b with
    | some (e, va, n) => if (homeRead s (asidOfInst s e.inst) va n).isNone then some (.mxu k va) else none
    | none => none)
  match mxuHead c (· == 3) with
  | some e => if e.second then skim else (match moutFault s e with | some va => .mxu k va :: skim | none => skim)
  | none => skim

/-- Faults of the copy channels of a core. -/
def chanSites (s : State) (k : Nat) : List Site :=
  let s := focusOn k s
  (List.range 4).filterMap (fun ch => (chanFault s s.core ch).map (fun va => .chan k ch va))

/-- Every access that waits for a translation. -/
def sites (s : State) : List Site :=
  (coreIds s).flatMap (fun k => ctxSites s k ++ mxuSites s k ++ chanSites s k) ++
  (List.range s.pkg.nts.length).filterMap (fun n => match s.pkg.nts[n]? with
    | some x => if writableRange (focusOn x.core s) x.asid x.va x.bytes.length then none else some (.nt n x.va)
    | none => none) ++
  (List.range s.pkg.sto.length).filterMap (fun n => (s.pkg.sto[n]?).bind (fun e => (stoFault s e).map (fun va => .sto n va))) ++
  (List.range s.pkg.stoDone.length).filterMap (fun n => match s.pkg.stoDone[n]? with
    | some d => if slotWritable s d then none else some (.slot n (stoStat d.cmd))
    | none => none)

/-- The address space and the address of a fault. -/
def siteVa (s : State) (x : Site) : Nat × Nat :=
  match x with
  | .ctx k _ va => (asidOn s (coreOf s k), va)
  | .mxu k va => (match (coreOf s k).mxu.q with | e :: _ => asidOfInst s e.inst | [] => 0, va)
  | .chan k ch va => (match (chanOf (coreOf s k) ch).q with | e :: _ => asidOfInst s e.inst | [] => 0, va)
  | .nt n va => (match s.pkg.nts[n]? with | some x => x.asid | none => 0, va)
  | .sto n va => (match s.pkg.sto[n]? with | some e => e.asid | none => 0, va)
  | .slot n va => (match s.pkg.stoDone[n]? with | some d => d.cmd.asid | none => 0, va)

/-! ## Resolved: Klogar maps a page -/

/-- Klogar maps a page that covers an address, or changes the rights of the page there, which a cluster uses once it has acknowledged
the invalidation (R392); none where it cannot be so mapped. Read-only memory stays so (R368, R391). -/
def mapPage (asid va : Nat) (p : PageSpec) (s : State) : Option State :=
  let n := pageBytes p.size
  let page : Page := { asid := asid, va := p.va, size := p.size, frame := p.frame, die := p.die, writable := p.writable,
                       exec := p.exec, remote := p.remote }
  if p.asid ≠ asid ∨ 3 < p.size ∨ 3 < p.die ∨ p.va % n ≠ 0 ∨ va < p.va ∨ p.va + n ≤ va ∨ 2 ^ 56 < p.va + n then none
  else
    let same := fun (q : Page) => q.asid == asid && q.va == p.va && q.size == p.size && q.frame == p.frame && q.die == p.die &&
      q.remote == p.remote
    if s.pkg.pages.any (fun q => same q && !q.writable && p.writable) then none
    else if s.pkg.pages.any same then
      some (updPkg (fun g => { g with
        shoot := g.shoot ++ (g.pages.filter same).map (shootOf true)
        pages := g.pages.map (fun q => if same q then page else q) }) s)
    else if spanFree s asid p.va n && (p.remote.isSome || (p.frame % n == 0 && frameFree s p.frame n)) then
      some (updPkg (fun g =>
        let h := if p.remote.isSome then g else clearFrame p.frame n g
        { h with
          pages := h.pages ++ [page]
          mem := if p.remote.isSome then h.mem
            else p.bytes.foldl (fun m b => if b.1 < n then memWrite m (p.frame + b.1) b.2 else m) h.mem }) s)
    else none

/-! ## Unresolved (R391, R393, R422) -/

/-- The activation of core k ends as an abort, and the instance receives the fault message: on k, in a replica group on its primary
(R421). -/
def abortFault (k cause va : Nat) (s : State) : State :=
  withCore k s (fun s =>
    let i := actInst s
    if s.core.act.isSome then faultMsg i (leadCore s) k cause va (everywhere (abortAct 2) s) else s)

/-- The core of an instance's placement whose replica stands on core k: k itself, or its primary (R298). -/
def primaryOf (s : State) (inst k : Nat) : Nat :=
  match (look inst s.pkg.insts).bind (fun x => x.second.find? (fun q => q.2.contains k)) with | some q => q.1 | none => k

/-- An access is abandoned whose activation may be over. -/
def abandoned (k stamp inst va : Nat) (s : State) : State :=
  if owns (coreOf s k) stamp inst then abortFault k 5 va s
  else faultMsg inst (primaryOf s inst k) k 5 va (logErr { inst := inst, core := k, cause := 15, detail := va } s)

/-- Is the activation that pushed or stored displaced? -/
def awayOwner (s : State) (k stamp inst : Nat) : Bool := s.pkg.saves.any (fun x => x.core == k && owns x.image stamp inst)

/-- The running MXU command is abandoned, those behind it are discarded; a linked one among them waits for its repair (R273, R422). -/
def dropMxu (c : Core) : Core :=
  let linked := holdsLinked c
  let d := emptyMxu c
  { d with mxu := { d.mxu with broken := d.mxu.broken || linked } }

/-- Klogar cannot resolve a fault. The fault of an access whose activation is displaced waits. -/
def unresolved (x : Site) (s : State) : State :=
  match x with
  | .ctx k _ va => abortFault k 5 va s
  | .mxu k va =>
    (match (coreOf s k).mxu.q with
     | e :: _ => if awayOwner s k e.stamp e.inst then s
       else abandoned k e.stamp e.inst va (trimPins (setCore k (dropMxu (coreOf s k)) s))
     | [] => s)
  | .chan k ch _ =>
    (match (chanOf (coreOf s k) ch).q with
     | e :: _ => withCore k s (chanStop ch e 1)
     | [] => s)
  | .nt n va =>
    (match s.pkg.nts[n]? with
     | some y => if awayOwner s y.core y.stamp y.inst then s
       else abandoned y.core y.stamp y.inst va (updPkg (fun g => { g with nts := removeAt n g.nts }) s)
     | none => s)
  | .sto n _ => (match s.pkg.sto[n]? with | some e => stoFail n e 5 0 none s | none => s)
  | .slot n _ => (match s.pkg.stoDone[n]? with | some d => slotLost n d s | none => s)

/-- PGFAULT (R391, R422): Klogar resolves the n-th waiting fault with a page, or gives it up. -/
def execPgfault (n : Nat) (fix : Option PageSpec) (s : State) : Host.Outcome State Fault Refusal :=
  .next (match (sites s)[n]? with
    | none => s
    | some x => match fix with
      | some p => (mapPage (siteVa s x).1 (siteVa s x).2 p s).getD s
      | none => unresolved x s)

/-- FETCH (R393): Klogar pages the text in that context h of core k waits for, or the activation ends. -/
def execFetch (k h : Nat) (fix : Option PageSpec) (s : State) : Host.Outcome State Fault Refusal :=
  .next (
    let c := coreOf s k
    match (c.ctxs.getD h {}).wait with
    | .fetch va =>
      if fetchable s (asidOn s c) va then s
      else (match fix with
        | some p => (mapPage (asidOn s c) va p s).getD s
        | none => abortFault k 6 va s)
    | _ => s)

/-! ## The TLBs (R390, R392) -/

/-- The global bytes of the sectors in a core's stash that hold tagged bytes: where its write-backs will go. -/
def taggedSectors (c : Core) : List Nat :=
  (c.wins.flatMap (fun w => match w with
    | some w => w.tagged.map (fun t => w.va + 64 * sectorOf w t.1)
    | none => [])).eraseDups

/-- The pages of a range of an address space. -/
def pagesOf (s : State) (asid va n : Nat) : List Nat :=
  ((List.range ((va % 4096 + n + 4095) / 4096)).filterMap (fun i => (findPage s asid (va / 4096 * 4096 + 4096 * i)).map (·.va))).eraseDups

/-- The translations that the cluster of a core looks for: fetches, fills and write-backs, copies, skimmer reads, global outputs of the
MXU, each for its whole range. -/
def wanted (s : State) (k : Nat) : List TlbEntry :=
  let s := focusOn k s
  let c := s.core
  let asid := asidOn s c
  let at_ := fun (asid va n : Nat) => (pagesOf s asid va n).map (fun p => (⟨clusterOf k, asid, p⟩ : TlbEntry))
  (c.ctxs.flatMap (fun x => if x.live then at_ asid x.pc.toNat 12 else [])) ++
  (c.ctxs.flatMap (fun x => match x.wait with | .fill a => (match fillPlace c a with | some f => at_ asid f.2.2 64 | none => []) | _ => [])) ++
  ((taggedSectors c).flatMap (fun va => at_ asid va 64)) ++
  ((s.pkg.nts.filter (fun x => x.core == k)).flatMap (fun x => at_ x.asid x.va x.bytes.length)) ++
  ((mxuHead c (· == 3)).toList.flatMap (fun e => if moutGlob e.cmd then (List.range 16).flatMap (fun r =>
    at_ (asidOfInst s e.inst) (fld e.cmd 191 128 + r * fld e.cmd 223 192) (16 * outSize (fld e.cmd 27 24))) else [])) ++
  ((List.range 4).flatMap (fun ch => match (chanOf c ch).q with
    | e :: _ => if e.begun then at_ (asidOfInst s e.inst) (copyVa e.cmd e.done) 64 else []
    | [] => [])) ++
  ([false, true].flatMap (fun b => match skimNext c b with | some (e, va, n) => at_ (asidOfInst s e.inst) va n | none => []))

/-- The translations that the storage engines look for in the Creamery's own TLB. -/
def wantedSto (s : State) : List TlbEntry :=
  s.pkg.sto.flatMap (fun e =>
    let at_ := fun (r : Nat × Nat) => (pagesOf (creameryView s) e.asid r.1 r.2).map (fun p => (⟨1024, e.asid, p⟩ : TlbEntry))
    (if stoOp e = 2 || 4 ≤ stoOp e then at_ (stoIn s e) else []) ++ (if stoOp e = 1 || stoOp e = 4 then at_ (stoOut s e) else []) ++
      (if stoDict e = 0 then [] else at_ (stoDictSpan e)) ++ at_ (stoStat e, 16))

/-- The misses that wait, one for each page and cluster. -/
def misses (s : State) : List TlbEntry :=
  (((coreIds s).flatMap (wanted s) ++ wantedSto s).filter (fun e => !s.pkg.tlb.contains e)).eraseDups

/-- The walk of a miss: its die (4: the Creamery's), address space and page. -/
def walkOf (e : TlbEntry) : Nat × Nat × Nat := (e.cluster / 256, e.asid, e.va)

/-- A TLB of 1,024 entries takes one; a full one loses its oldest. -/
def tlbTake (l : List TlbEntry) (e : TlbEntry) : List TlbEntry :=
  (if 1024 ≤ (l.filter (fun x => x.cluster == e.cluster)).length then l.eraseP (fun x => x.cluster == e.cluster) else l) ++ [e]

/-- TABLE_WALK (R390): the n-th miss arrives at its die, where misses to one page wait on a single walk; when it stands among the first 64
there, a walker has it, and the next such event ends its walk for every requester of the die. A walk takes time only: an access uses the
translation of `findPage` (notes/assumptions/7.md). -/
def execTableWalk (n : Nat) (s : State) : Host.Outcome State Fault Refusal :=
  .next (match (misses s)[n]? with
    | none => s
    | some e =>
      let w := walkOf e
      let open_ := s.pkg.walks.filter (fun x => (misses s).any (fun m => walkOf m == x))
      if !open_.contains w then updPkg (fun g => { g with walks := open_ ++ [w] }) s
      else if ((open_.filter (fun x => x.1 == w.1)).take 64).contains w then
        updPkg (fun g => { g with
          walks := open_.filter (· != w)
          tlb := ((misses s).filter (fun m => walkOf m == w)).foldl tlbTake g.tlb }) s
      else s)

/-- The clusters of the cores that the state lists. -/
def clusters (s : State) : List Nat := ((coreIds s).map clusterOf).eraseDups

/-- The acknowledgements that are awaited: which invalidation, and of which cluster. -/
def unacked (s : State) : List (Nat × Nat) :=
  (List.range s.pkg.shoot.length).flatMap (fun i => match s.pkg.shoot[i]? with
    | some x => ((clusters s).filter (fun c => !x.acked.contains c)).map (fun c => (i, c))
    | none => [])

/-- One cluster acknowledges the invalidation of a page: its entry goes, and it translates anew. -/
def ackShoot (c : Nat) (x : Shoot) : Shoot := { x with acked := x.acked ++ [c] }

/-- TLB_SHOOTDOWN (R392): the n-th acknowledgement that is awaited. An invalidation that every cluster has acknowledged is over, and with
it the translation of the Creamery's own TLB goes. -/
def execTlbShootdown (n : Nat) (s : State) : Host.Outcome State Fault Refusal :=
  .next (match (unacked s)[n]? with
    | none => s
    | some (i, c) =>
      match s.pkg.shoot[i]? with
      | none => s
      | some x =>
        let y := ackShoot c x
        let last := (clusters s).all y.acked.contains
        updPkg (fun g => { g with
          shoot := if last then removeAt i g.shoot else mapAt (fun _ => y) i g.shoot
          tlb := g.tlb.filter (fun e => !(e.asid == x.asid && e.va == x.va && (e.cluster == c || (last && e.cluster == 1024)))) }) s)

/-! ## Migration (R394) -/

/-- Is the page of an address being migrated? -/
def migrating (s : State) (asid va : Nat) : Bool :=
  match findPage s asid va with
  | some p => s.pkg.migrs.any (fun m => m.asid == asid && m.va == p.va)
  | none => false

/-- The non-temporal stores to some physical bytes that can be combined are combined, in their order. -/
def settleNts (here : Nat → Bool) (s : State) : State :=
  (s.pkg.nts.filter (fun x => writableRange s x.asid x.va x.bytes.length && (ntPas s x).any here)).foldl (fun t x =>
    homeWrite x.asid x.va x.bytes (updPkg (fun g => { g with nts := g.nts.erase x }) t)) s

/-- The flush of a page: what is on its way there and its dirty bytes are accepted at their homes, its sectors become invalid in every
stash. Bytes of open segments keep their tags and values. -/
def flushPage (p : Page) (s : State) : State :=
  let n := pageBytes p.size
  let here := fun (pa : Nat) => p.frame ≤ pa && pa < p.frame + n
  let s := settleNts here s
  let flying := (s.pkg.wb.flatMap (·.bytes)).filter (fun x => here x.1)
  let dirty := s.pkg.cc.filter (fun d => here d.pa)
  let bad := ((s.pkg.wb.flatMap (·.bad)).filter (fun g => here (8 * g))) ++ badOf dirty
  let clean := fun (c : Core) => if c.lastAsid != some p.asid then c
    else { c with wins := c.wins.map (Option.map (fun w => { w with
      valid := w.valid.filter (fun n' => !meets (w.va + 64 * n') 64 p.va n) })) }
  let t := updPkg (fun g => homePas (flying ++ dirty.map (fun d => (d.pa, d.byte))) bad { g with
    cc := g.cc.filter (fun d => !here d.pa)
    wb := g.wb.map (fun b => { b with
      bytes := b.bytes.filter (fun x => !here x.1)
      bad := b.bad.filter (fun g => !here (8 * g)) }) }) s
  { t with core := clean t.core, others := t.others.map (fun o => (o.1, clean o.2)) }

/-- A page's bytes and marks are copied to a frame. -/
def copyFrame (p : Page) (frame : Nat) (k : Package) : Package :=
  let n := pageBytes p.size
  let c := clearFrame frame n k
  { c with
    mem := (memSlice k.mem p.frame n).foldl (fun m x => memWrite m (frame + x.1) x.2) c.mem
    poisonSec := c.poisonSec ++ (k.poisonSec.filter (fun g => p.frame ≤ 64 * g && 64 * g < p.frame + n)).map (fun g => g - p.frame / 64 + frame / 64)
    poison := c.poison ++ (k.poison.filter (fun g => p.frame ≤ 8 * g && 8 * g < p.frame + n)).map (fun g => g - p.frame / 8 + frame / 8) }

/-- MIGR (R394): the page is flushed; a second step copies it, and its old home becomes a stub. Adds that reach a counter page before that
step are applied at its old home; at the step, its freeze, it moves to a cluster of the die with its arms and waiters. -/
def execMigr (asid va die frame : Nat) (s : State) : Host.Outcome State Fault Refusal :=
  .next (
    if 3 < die then s
    else match s.pkg.ctrPages.find? (fun p => p.asid == asid && p.va == va) with
    | some p =>
      let home := die * 256 + frame % 256
      (match s.pkg.migrs.find? (fun m => m.asid == asid && m.va == va) with
       | none =>
         if p.home = home || 8 ≤ (s.pkg.ctrPages.filter (fun q => q.home == home)).length then s
         else updPkg (fun g => { g with migrs := g.migrs ++ [⟨asid, va, die, frame, false⟩] }) s
       | some m =>
         let to_ := m.die * 256 + m.frame % 256
         if m.stub || 8 ≤ (s.pkg.ctrPages.filter (fun q => q.home == to_)).length then s
         else updPkg (fun g => { g with
           ctrPages := g.ctrPages.map (fun q => if q = p then { q with home := to_ } else q)
           shoot := g.shoot ++ [{ asid := asid, va := va }]
           migrs := g.migrs.map (fun x => if x = m then { x with stub := true } else x) }) s)
    | none =>
      match s.pkg.pages.find? (fun p => p.asid == asid && p.va == va && p.remote.isNone) with
      | none => s
      | some p =>
        match s.pkg.migrs.find? (fun m => m.asid == asid && m.va == va) with
        | none =>
          if frame % pageBytes p.size = 0 && frameFree s frame (pageBytes p.size) then
            updPkg (fun g => { g with migrs := g.migrs ++ [⟨asid, va, die, frame, false⟩] }) (flushPage p s)
          else s
        | some m =>
          if m.stub then s
          else updPkg (fun g =>
            let h := copyFrame p m.frame g
            { h with
              pages := h.pages.map (fun q => if q = p then { q with frame := m.frame, die := m.die } else q)
              shoot := h.shoot ++ [shootOf false p]
              migrs := h.migrs.map (fun x => if x = m then { x with stub := true } else x) }) (flushPage p s))

/-- STUB_REMOVAL (R394): every TLB has acknowledged. -/
def execStubRemoval (n : Nat) (s : State) : Host.Outcome State Fault Refusal :=
  .next (match s.pkg.migrs[n]? with
    | none => s
    | some m =>
      if m.stub && !s.pkg.shoot.any (fun p => p.asid == m.asid && p.va == m.va) then
        updPkg (fun g => { g with migrs := removeAt n g.migrs }) s
      else s)

/-! ## Stash fills (R133, R243, R244, R301) -/

/-- Bytes with those of a list of stores laid over them, the latest last. -/
def overlay (va : Nat) (bs : List Byte) (nts : List (Nat × List Byte)) : List Byte :=
  (List.range bs.length).map (fun j => nts.foldl (fun b e => if e.1 ≤ va + j && va + j < e.1 + e.2.length then e.2.getD (va + j - e.1) b else b)
    (bs.getD j 0))

/-- The stores that the focal core holds (R259). -/
def heldNts (s : State) : List (Nat × List Byte) :=
  (heldOf none s).filterMap (fun e => match e.out with | .nt va bs | .stash va bs => some (va, bs) | _ => none)

/-- The committed bytes of a sector as a fill of the focal core finds them: in its cluster, or on their way there as its own non-temporal
stores, or at their homes (R243, R259). Whatever the cluster still holds was committed after those stores left (R134). -/
def sectorBytes (s : State) (asid va : Nat) : Option (List Byte) :=
  let cl := clusterOf s.core.id
  let mine := (s.pkg.nts.filter (fun x => x.core == s.core.id && x.asid == asid)).map (fun x => (x.va, x.bytes))
  (clusterRead s cl asid va 64).map (fun bs =>
    let laid := overlay va bs mine
    (List.range 64).map (fun j =>
      if ((paOf s asid (va + j)).bind (cachedByte s cl)).isSome then bs.getD j 0 else laid.getD j 0))

/-- The fills of one sector that a window has had, in their order. -/
def fillsOf (n : Nat) (w : Win) : List (List Byte) := (w.fills.filter (fun f => f.1 == n)).map (·.2)

/-- The primary's sector n of a window without what its open segments have stored there. -/
def committedSector (s : State) (n : Nat) (v : Win) : Option (List Byte) :=
  let k := leadCore s
  let at_ := fun (j : Nat) => v.base + 64 * n + j
  (sectorBytes (focusOn k s) (asidOf s) (v.va + 64 * n)).map (fun bs => (List.range 64).map (fun j =>
    if v.tagged.any (fun t => t.1 == at_ j) then bs.getD j 0 else memRead (coreOf s k).ls (at_ j)))

/-- The bytes that a secondary's fill of sector n of window i takes for context h: its n-th fill of a sector takes what the primary's n-th
found; none while the primary has not made it (R301). Where the primary has come to its commit point with the sector still valid, it
takes that sector. -/
def primaryFill (s : State) (h i n : Nat) (w : Win) : Option (List Byte) :=
  let c := coreOf s (leadCore s)
  match c.wins.getD i none with
  | none => none
  | some v =>
    if v.va ≠ w.va ∨ v.base ≠ w.base then none
    else match (fillsOf n v)[(fillsOf n w).length]? with
      | some bs => some bs
      | none => if v.valid.contains n && (c.ctxs.getD h {}).wait == .verdict then committedSector s n v else none

/-- Is a sector poisoned, in the cluster or at its home (R407)? -/
def sectorPoison (s : State) (asid va : Nat) : Option Nat :=
  (List.range 8).findSome? (fun j => granulePoison s asid (va + 8 * j))

/-- A fill that finds a poisoned granule raises UE in the context that waits (R407, R408, R316). -/
def fillUe (h pa : Nat) (s : State) : State :=
  asCtx h s (raiseUe pa)

/-- STASH_FILL: the sector that context h of core k waits for is filled. -/
def execStashFill (k h : Nat) (s : State) : Host.Outcome State Fault Refusal :=
  .next (withCore k s (fun s =>
    match (ctxAt s h).wait with
    | .fill a =>
      let done := setCtxAt h (fun x => { x with wait := .none })
      (match winAt s.core a with
       | none => done s
       | some (i, w) =>
         let n := sectorOf w a
         let va := w.va + 64 * n
         let asid := asidOf s
         if w.valid.contains n then done s
         else if secondary s then
           (match primaryFill s h i n w with
            | some bs => done (updCore (fillSector i n (overlay va bs (heldNts s)) (some bs)) s)
            | none => s)
         else if migrating s asid va then s
         else match sectorBytes s asid va with
           | none => s
           | some bs => match sectorPoison s asid va with
             | some pa => fillUe h pa s
             | none => done (updCore (fillSector i n (overlay va bs (heldNts s)) (if redundant s then some bs else none)) s))
    | _ => s))

/-! ## On the way home (R245, R246) -/

/-- May the n-th non-temporal store be combined: its translation is there, a fault waits (R422), and no earlier one of its core to a byte
of it is on its way (R256)? -/
def ntReady (s : State) (n : Nat) : Bool :=
  match s.pkg.nts[n]? with
  | none => false
  | some x =>
    writableRange (focusOn x.core s) x.asid x.va x.bytes.length &&
      !(s.pkg.nts.take n).any (fun y => y.core == x.core && y.asid == x.asid && meets y.va y.bytes.length x.va x.bytes.length)

/-- NT_COMBINE (R246): the n-th non-temporal store is combined at its home. -/
def execNtCombine (n : Nat) (s : State) : Host.Outcome State Fault Refusal :=
  .next (match s.pkg.nts[n]? with
    | none => s
    | some x =>
      if ntReady s n then
        withCore x.core (updPkg (fun g => { g with nts := removeAt n g.nts }) s) (homeWrite x.asid x.va x.bytes)
      else s)

/-- CLUSTER_CACHE_EVICTION (R245): the line of the n-th dirty byte leaves the cluster cache for its home. -/
def execClusterCacheEviction (n : Nat) (s : State) : Host.Outcome State Fault Refusal :=
  .next (match s.pkg.cc[n]? with
    | none => s
    | some d =>
      let line := fun (x : Dirty) => clusterOf x.core == clusterOf d.core && x.pa / 256 == d.pa / 256
      let out := s.pkg.cc.filter line
      updPkg (fun g => { g with
        cc := g.cc.filter (fun x => !line x)
        wb := g.wb ++ [{ bytes := out.map (fun x => (x.pa, x.byte)), core := d.core, waiters := [], bad := badOf out }] }) s)

end Sys2Proof.Machine
end

