-- ==== Sys2Proof/Machine/Object.lean ====
section
/-! DEFINITION. A Sahom object (R342 to R355): its header, sections, entries, symbols and relocation records, each with the checks of
its rule, and how a record is applied. -/

namespace Sys2Proof.Machine

/-- Why a load fails (R364). -/
structure LoadErr where
  code  : Nat
  sect  : Nat := 0
  index : Nat := 0
  sym   : Nat := 0
  value : Nat := 0
  deriving DecidableEq, Repr

/-- What a step of a load answers. -/
abbrev Load (α : Type) := Except LoadErr α

/-- Fail with a record unless a condition holds. -/
def must (ok : Bool) (e : LoadErr) : Load Unit := if ok then .ok () else .error e

/-- The error record (R364). -/
def errBits (e : LoadErr) : BitVec 256 :=
  BitVec.ofNat 256 (e.code % 2 ^ 8 + e.sect % 2 ^ 16 * 2 ^ 32 + e.index % 2 ^ 32 * 2 ^ 64 + e.sym % 2 ^ 32 * 2 ^ 96 +
    e.value % 2 ^ 64 * 2 ^ 128)

/-- n bytes of a file at an offset, as a number and as a list. -/
def fileLE (f : List Byte) (off n : Nat) : Nat := numLE ((f.drop off).take n)
def fileBytes (f : List Byte) (off n : Nat) : List Byte := (f.drop off).take n

/-- A number rounded up to a multiple. -/
def roundUp (x n : Nat) : Nat := (x + n - 1) / n * n

/-! ## Header (R343) -/

/-- A field of the header. -/
def hf (h hi lo : Nat) : Nat := bits h hi lo

def hIsMod (h : Nat) : Bool := bit h 48
def hVtag (h : Nat) : Nat := hf h 143 128
def hShnum (h : Nat) : Nat := hf h 159 144
def hShoff (h : Nat) : Nat := hf h 191 160
def hTrap (h : Nat) : Nat := hf h 255 224
def hTwp (h : Nat) : Nat := hf h 287 256
def hWsb (h : Nat) : Nat := hf h 319 288
def hDbase (h : Nat) : Nat := hf h 351 320
def hDsize (h : Nat) : Nat := hf h 383 352

/-- The checks of the header (R342, R343). -/
def checkHeader (f : List Byte) : Load Nat := do
  let h := fileLE f 0 64
  let w := fun (x : Nat) => 1 ≤ x && x ≤ 15
  let modOk := w (hf h 387 384) && w (hf h 391 388) && w (hf h 395 392) && hVtag h != 0 && hWsb h % 64 == 0 && hDbase h % 64 == 0
  let libOk := hf h 400 384 == 0 && hf h 383 256 == 0 && hf h 223 192 == 0 && hVtag h == 0 && hTrap h == 0xFFFFFFFF
  must (64 ≤ f.length && hf h 31 0 == 0x014F4853 && hf h 47 32 == 1 && hf h 63 49 == 0 && hf h 447 401 == 0 &&
    hf h 127 64 % 4096 == 0 && hf h 127 120 == 0 && hf h 399 396 ≤ 12 && 2 ≤ hShnum h && hShnum h ≤ 64 && hShoff h % 8 == 0 &&
    hShoff h + 32 * hShnum h ≤ f.length && hf h 511 448 == (sig64 0 (f.drop 64)).toNat &&
    (hTrap h != 0xFFFFFFFF || hTwp h == 0) && (if hIsMod h then modOk else libOk)) { code := 1 }
  .ok h

/-! ## Sections (R344, R345) -/

/-- A section. -/
structure Sec where
  idx   : Nat
  name  : Nat
  type  : Nat
  align : Nat
  wr    : Bool
  off   : Nat
  size  : Nat
  info  : Nat
  bytes : List Byte
  deriving DecidableEq, Repr

/-- Section table entry i. -/
def secAt (f : List Byte) (shoff i : Nat) : Sec :=
  let e := fileLE f (shoff + 32 * i) 32
  let bss := bits e 39 32 == 4
  { idx := i, name := bits e 31 0, type := bits e 39 32, align := bits e 47 40, wr := bit e 48, off := bits e 95 64,
    size := bits e 127 96, info := bits e 143 128, bytes := if bss then [] else fileBytes f (bits e 95 64) (bits e 127 96) }

/-- Bytes of an entry of a section of a type; 1 where it has none. -/
def entrySize (type : Nat) : Nat :=
  match type with | 1 => 2 | 5 => 32 | 6 | 7 | 9 => 16 | 8 => 8 | 10 => 24 | _ => 1

/-- Does an offset of the string section begin a NUL-terminated name? -/
def nameOk (str : List Byte) (n : Nat) : Bool := n < str.length && (str.drop n).contains 0

/-- The name at an offset. -/
def nameAt (str : List Byte) (n : Nat) : List Byte := (str.drop n).takeWhile (· != 0)

/-- The section of a type, and the sections of the object. -/
def secOf (ss : List Sec) (type : Nat) : Option Sec := ss.find? (fun x => x.type == type)
def bytesOf (ss : List Sec) (type : Nat) : List Byte := match secOf ss type with | some x => x.bytes | none => []
def sizeOf (ss : List Sec) (type : Nat) : Nat := match secOf ss type with | some x => x.size | none => 0
def indexOf (ss : List Sec) (type : Nat) : Nat := match secOf ss type with | some x => x.idx | none => 0

/-- The checks of one section table entry. -/
def secOk (f : List Byte) (h : Nat) (str : List Byte) (ss : List Sec) (x : Sec) : Bool :=
  let e := fileLE f (hShoff h + 32 * x.idx) 32
  let target := ss.find? (fun y => y.idx == x.info)
  bits e 255 144 == 0 && bits e 63 49 == 0 && 1 ≤ x.type && x.type ≤ 12 && x.align ≤ 12 && nameOk str x.name &&
    (x.type == 1 || !x.wr) && (if x.type = 4 then x.off == 0 else x.off + x.size ≤ f.length) && x.size % entrySize x.type == 0 &&
    (hIsMod h || !(5 ≤ x.type && x.type ≤ 7)) &&
    (if x.type = 9 then (match target with | some t => [1, 2, 3, 5, 6, 7].contains t.type | none => false) &&
        (ss.filter (fun y => y.type == 9 && y.info == x.info)).length == 1
     else x.info == 0)

/-- The sections, with their checks (R342, R344, R345). -/
def checkSections (f : List Byte) (h : Nat) : Load (List Sec) := do
  let ss := (List.range (hShnum h - 1)).map (fun i => secAt f (hShoff h) (i + 1))
  let bad := fun (i : Nat) => ({ code := 2, sect := i } : LoadErr)
  let count := fun (t : Nat) => (ss.filter (fun x => x.type == t)).length
  let str := bytesOf ss 11
  must (fileLE f (hShoff h) 32 == 0) (bad 0)
  must (count 1 == 1 && count 10 == 1 && count 11 == 1 && [2, 3, 4, 5, 6, 7, 8, 12].all (fun t => count t ≤ 1) && count 9 ≤ 8) (bad 0)
  must (str.head? == some 0 && str.getLast? == some 0) (bad (indexOf ss 11))
  must ((bytesOf ss 10).take 24 == List.replicate 24 0 && 24 ≤ sizeOf ss 10) (bad (indexOf ss 10))
  match ss.find? (fun x => !secOk f h str ss x) with
  | some x => .error (bad x.idx)
  | none => .ok ss

/-! ## Symbols and relocation records (R350, R351) -/

/-- A symbol. -/
structure Sym where
  name  : List Byte
  sect  : Nat
  bind  : Nat
  share : Bool
  value : Nat
  size  : Nat
  hash  : Nat
  deriving DecidableEq, Repr

/-- Symbol i. -/
def symAt (ss : List Sec) (i : Nat) : Sym :=
  let e := fileLE (bytesOf ss 10) (24 * i) 24
  { name := nameAt (bytesOf ss 11) (bits e 31 0), sect := bits e 47 32, bind := bits e 51 48, share := bit e 56,
    value := bits e 127 64, size := bits e 159 128, hash := bits e 191 160 }

/-- Symbols, entry 0 among them. -/
def symCount (ss : List Sec) : Nat := sizeOf ss 10 / 24

/-- Is a symbol entry well formed? -/
def symOk (ss : List Sec) (i : Nat) : Bool :=
  let e := fileLE (bytesOf ss 10) (24 * i) 24
  let s := bits e 47 32
  bits e 63 57 == 0 && bits e 55 52 ≤ 2 && bits e 51 48 ≤ 2 && nameOk (bytesOf ss 11) (bits e 31 0) &&
    (s == 0 || s == 0xFFF1 || ss.any (fun x => x.idx == s && 1 ≤ x.type && x.type ≤ 4)) && (bit e 56 || bits e 191 160 == 0)

/-- A relocation record: section of records, its index there, target section, offset, type, symbol, addend. -/
structure Rel where
  sect   : Nat
  index  : Nat
  target : Nat
  offset : Nat
  type   : Nat
  sym    : Nat
  addend : Int
  deriving DecidableEq, Repr

/-- Every record in file order (R361). -/
def relsOf (ss : List Sec) : List Rel :=
  (ss.filter (fun x => x.type == 9)).flatMap (fun x => (List.range (x.size / 16)).map (fun i =>
    let e := fileLE x.bytes (16 * i) 16
    { sect := x.idx, index := i, target := x.info, offset := bits e 31 0, type := bits e 39 32, sym := bits e 63 40,
      addend := sv (bits e 127 64) 64 }))

/-! ## Placing (R359, R360) -/

/-- Offset of .bss in the data block, and the bytes of the block. -/
def bssOff (ss : List Sec) : Nat := match secOf ss 4 with | some x => roundUp (sizeOf ss 3) (2 ^ x.align) | none => sizeOf ss 3
def blockSize (ss : List Sec) : Nat := bssOff ss + sizeOf ss 4

/-- Bytes of the image: .text and .const, each rounded up to 4 KiB. -/
def imageSpan (ss : List Sec) : Nat := roundUp (sizeOf ss 1) 4096 + roundUp (sizeOf ss 2) 4096

/-- The installed address of a section, by type. -/
def sectBase (ss : List Sec) (b dbase type : Nat) : Nat :=
  match type with
  | 1 => b
  | 2 => b + roundUp (sizeOf ss 1) 4096
  | 3 => dbase
  | 4 => dbase + bssOff ss
  | _ => 0

/-- The address that a definition of the object has. -/
def ownAddr (ss : List Sec) (b dbase : Nat) (y : Sym) : Nat :=
  if y.sect = 0xFFF1 then y.value
  else match ss.find? (fun x => x.idx == y.sect) with
    | some x => (sectBase ss b dbase x.type + y.value) % 2 ^ 64
    | none => 0

/-! ## Applying a record (R352, R353) -/

/-- The staged sections: index and bytes. -/
abbrev Staged := List (Nat × List Byte)

/-- Write the low n bytes of x into a list of bytes. -/
def patch (off n x : Nat) (bs : List Byte) : List Byte := bs.take off ++ bytesLE x n ++ bs.drop (off + n)

/-- The words of a section from an offset. -/
def wordsFrom (bs : List Byte) (off : Nat) : Nat → List Nat
  | 0 => []
  | n + 1 => if off + 2 ≤ bs.length then fileLE bs off 2 :: wordsFrom bs (off + 2) n else []

/-- The chain at an even offset: its prefix words, at most four (R74), and its base word. -/
def chainAt (bs : List Byte) (off : Nat) : Option (List Nat × Nat) :=
  let ws := wordsFrom bs off 5
  match ws.dropWhile (fun w => 14 ≤ w / 4096) with
  | base :: _ => if off % 2 = 0 then some (ws.takeWhile (fun w => 14 ≤ w / 4096), base) else none
  | [] => none

/-- Does a chain begin with its only PFX.I word, of payload 0? -/
def oneImm (ps : List Nat) : Bool :=
  match ps with | p :: rest => p == 0xF000 && rest.all (fun w => w / 4096 != 15) | [] => false

/-- Is a prefix word a PFX.P (R86)? -/
def isPage (w : Nat) : Bool := w / 1024 == 0xE400 / 1024

/-- The value x fits, else REL_OVERFLOW names it. -/
def fits (lo hi x : Int) (r : Rel) : Load Unit :=
  must (lo ≤ x && x ≤ hi) { code := 6, sect := r.sect, index := r.index, sym := r.sym, value := narrow 64 x }

/-- One relocated field of the section's bytes: V in the shape of the record's type. `sa` is S + A, `p` the place, `file` the section's
bytes in the file: the shape and the field are those that stand there, whatever earlier records have written (R353). -/
def applyTo (ss : List Sec) (rels : List Rel) (b : Nat) (r : Rel) (ttype : Nat) (sa : Int) (p : Nat) (file bs : List Byte) :
    Load (List Byte) := do
  let kind : LoadErr := { code := 7, sect := r.sect, index := r.index, sym := r.sym }
  let off := r.offset
  let zero := fun (n : Nat) => off + n ≤ file.length && fileLE file off n == 0
  let chain := chainAt file off
  let ps := match chain with | some c => c.1 | none => []
  let base := match chain with | some c => c.2 | none => 0
  let at_ := off + 2 * ps.length
  let text := ttype == 1 && chain.isSome
  match r.type with
  | 1 => do
    must (ttype ≤ 3 && p % 8 == 0 && zero 8) kind
    .ok (patch off 8 (narrow 64 sa) bs)
  | 2 => do
    must (ttype ≤ 3 && p % 4 == 0 && zero 4) kind
    fits 0 (2 ^ 32 - 1) sa r
    .ok (patch off 4 (narrow 32 sa) bs)
  | 3 => do
    must (text && oneImm ps && base / 4096 == 6 && base % 256 == 0) kind
    let hi := (sa - ((p / 4096 * 4096 : Nat) : Int) + 0x800).ediv 4096
    fits (-(2 ^ 19)) (2 ^ 19 - 1) hi r
    let v := narrow 20 hi
    .ok (patch at_ 2 (base + v % 256) (patch off 2 (0xF000 + v / 256) bs))
  | 4 => do
    must (text && oneImm ps && base / 4096 == 2 && base / 16 % 16 == 0 && base % 16 == 0) kind
    let v := narrow 16 (sv (narrow 12 sa) 12)
    .ok (patch at_ 2 (base + v % 16) (patch off 2 (0xF000 + v / 16) bs))
  | 5 => do
    must (text && ps == [] && base / 4096 == 5 && base % 256 == 0) kind
    let d := sa - (p : Int)
    must (d % 2 == 0) { kind with code := 6, value := narrow 64 d }
    fits (-128) 127 (d / 2) r
    .ok (patch off 2 (base + narrow 8 (d / 2)) bs)
  | 6 => do
    must (text && oneImm ps && base / 4096 == 5 && base % 256 == 0) kind
    let d := sa - (p : Int)
    must (d % 2 == 0) { kind with code := 6, value := narrow 64 d }
    fits (-(2 ^ 19)) (2 ^ 19 - 1) (d / 2) r
    let v := narrow 20 (d / 2)
    .ok (patch at_ 2 (base + v % 256) (patch off 2 (0xF000 + v / 256) bs))
  | 7 => do
    must (text && oneImm ps && base / 4096 == 8 && !ps.any (fun w => isPage w && w % 1024 != 0)) kind
    match rels.find? (fun q => q.type == 8 && q.sym == r.sym && q.target == indexOf ss 3) with
    | none => .error { kind with code := 8 }
    | some q => do
      let g := (q.offset : Int) + r.addend
      fits (-2048) 2047 g r
      .ok (patch off 2 (0xF000 + narrow 12 g) bs)
  | 8 => do
    must (ttype == 3 && off % 8 == 0 && 8 ≤ off && zero 8) kind
    .ok (patch off 8 (narrow 64 sa) bs)
  | 9 => do
    let own := (ss.find? (fun x => x.idx == (symAt ss r.sym).sect)).map (·.type) == some 1
    must (5 ≤ ttype && ttype ≤ 7 && off % entrySize ttype == 0 && zero 4) kind
    let v := sa - (b : Int)
    must (own && v % 2 == 0) { kind with code := 6, value := narrow 64 v }
    fits 0 ((sizeOf ss 1 : Int) - 1) v r
    .ok (patch off 4 v.toNat bs)
  | _ => .error kind

/-- One record of the object; `addr` resolves its symbol. -/
def applyRel (ss : List Sec) (rels : List Rel) (b dbase : Nat) (addr : Nat → Nat) (st : Staged) (r : Rel) : Load Staged :=
  match ss.find? (fun x => x.idx == r.target) with
  | none => .error { code := 7, sect := r.sect, index := r.index, sym := r.sym }
  | some x => do
    let bs := (look x.idx st).getD []
    let bs' ← applyTo ss rels b r x.type ((addr r.sym : Int) + r.addend) (sectBase ss b dbase x.type + r.offset) x.bytes bs
    .ok (st.map (fun y => if y.1 = x.idx then (y.1, bs') else y))

/-- Every record in file order. -/
def applyRels (ss : List Sec) (rels : List Rel) (b dbase : Nat) (addr : Nat → Nat) : List Rel → Staged → Load Staged
  | [], st => .ok st
  | r :: rs, st => do
    let st' ← applyRel ss rels b dbase addr st r
    applyRels ss rels b dbase addr rs st'

/-! ## Entries (R346 to R349) -/

/-- The handler entries, exports and state entries of staged sections. -/
def entriesOf (ss : List Sec) (st : Staged) (type : Nat) : List Nat :=
  let bs := (look (indexOf ss type) st).getD []
  if indexOf ss type = 0 then [] else (List.range (sizeOf ss type / entrySize type)).map (fun i => fileLE bs (entrySize type * i) (entrySize type))

/-- The export registers of a stage entry. -/
def exportList (e : Nat) : List Nat :=
  ((List.range 4).map (fun j => bits e (167 + 8 * j) (160 + 8 * j))).takeWhile (· != 0) |>.map (fun x => x % 128)

/-- Is the export list without a gap, each register inside the window? -/
def exportsOk (e : Nat) : Bool :=
  let bs := (List.range 4).map (fun j => bits e (167 + 8 * j) (160 + 8 * j))
  let used := bs.takeWhile (· != 0)
  used != [] && (bs.drop used.length).all (· == 0) && used.all (fun x => 0x80 ≤ x && x % 128 < bits e 54 48)

/-- Is handler entry i among `es` in range (R346, R347), but for its CODEOFF? -/
def handlerOk (wsb constSize : Nat) (es : List Nat) (i : Nat) : Bool :=
  let e := es.getD i 0
  let stage := bits e 105 104 == 1
  let z := fun (hi lo : Nat) => bits e hi lo == 0
  let earlier := es.take i
  z 255 224 && z 143 106 && z 98 98 && z 63 61 && z 55 55 && z 47 42 && bits e 105 104 ≤ 1 && bits e 97 96 ≤ 2 &&
    bits e 95 64 % 64 == 0 && bits e 60 56 ≤ 16 && 16 ≤ bits e 54 48 && bits e 54 48 ≤ 64 &&
    wsb + 1536 + bits e 95 64 ≤ 0x1F000 && !earlier.any (fun x => bits x 41 32 == bits e 41 32) &&
    (if stage then 1 ≤ bits e 103 100 && bits e 103 100 ≤ 8 && bits e 159 144 ≤ 0xFFFE && exportsOk e && bits e 223 192 % 8 == 0 &&
        bits e 223 192 + 32 ≤ constSize && !earlier.any (fun x => bits x 105 104 == 1 && bits x 159 144 == bits e 159 144)
     else z 103 100 && z 223 144)

/-- The first index of a list whose element fails. -/
def firstBad (n : Nat) (ok : Nat → Bool) : Option Nat := (List.range n).find? (fun i => !ok i)

/-- Every index passes, else BADENTRY names the first that does not. -/
def allEntries (sect n : Nat) (ok : Nat → Bool) : Load Unit :=
  match firstBad n ok with | some i => .error { code := 3, sect := sect, index := i } | none => .ok ()

/-- The checks of the entries before relocation. -/
def checkEntries (h : Nat) (ss : List Sec) : Load Unit := do
  let raw := ss.map (fun x => (x.idx, x.bytes))
  let hs := entriesOf ss raw 5
  allEntries (indexOf ss 5) hs.length (handlerOk (hWsb h) (sizeOf ss 2) hs)
  let es := entriesOf ss raw 6
  allEntries (indexOf ss 6) es.length (fun i => let e := es.getD i 0; bits e 127 64 == 0 && nameOk (bytesOf ss 11) (bits e 63 32))
  let rs := entriesOf ss raw 7
  allEntries (indexOf ss 7) rs.length (fun i =>
    let e := rs.getD i 0
    bits e 127 65 == 0 && (bit e 64 || bits e 31 0 == 0) &&
      !(rs.take i).any (fun x => bits x 47 32 == bits e 47 32 && bit x 64 == bit e 64))
  must (hIsMod h || (secOf ss 8).isNone) { code := 3, sect := indexOf ss 8 }
  let k := bytesOf ss 8
  let n := fileLE k 0 4
  must ((secOf ss 8).isNone || (k.length == 16 + 8 * n && fileLE k 4 12 == 0)) { code := 3, sect := indexOf ss 8 }
  allEntries (indexOf ss 8) (if (secOf ss 8).isNone then 0 else n) (fun i =>
    1 ≤ fileLE k (20 + 8 * i) 4 && fileLE k (16 + 8 * i) 4 + fileLE k (20 + 8 * i) 4 ≤ sizeOf ss 1)
  allEntries (indexOf ss 10) (symCount ss) (symOk ss)
  match (relsOf ss).find? (fun r => r.sym = 0 || symCount ss ≤ r.sym) with
  | some r => .error { code := 3, sect := r.sect, index := r.index }
  | none => .ok ()

/-- The checks of CODEOFF once HTAB records have filled it (R347). -/
def checkCode (ss : List Sec) (st : Staged) : Load Unit := do
  let inText := fun (o : Nat) => o % 2 == 0 && o < sizeOf ss 1
  let one := fun (type : Nat) (skip : Nat → Bool) =>
    let es := entriesOf ss st type
    allEntries (indexOf ss type) es.length (fun i => skip (es.getD i 0) || inText (bits (es.getD i 0) 31 0))
  one 5 (fun _ => false)
  one 6 (fun _ => false)
  one 7 (fun e => !bit e 64)

end Sys2Proof.Machine
end

