-- ==== Sys2Proof/Machine/Loader.lean ====
section
/-! DEFINITION. Loading (R359 to R366, R369, R370, R385 to R387, R187, R233, R298): the steps of R361, and what an installation puts
into the machine. -/

namespace Sys2Proof.Machine

/-! ## Symbols of a context (R362, R363) -/

/-- A library's definition by name: strong, or the first-loaded weak one. -/
def strongLib (s : State) (asid : Nat) (name : List Byte) : Option LibSym :=
  s.pkg.libs.find? (fun l => l.asid == asid && l.name == name && !l.weak)
def weakLib (s : State) (asid : Nat) (name : List Byte) : Option LibSym :=
  s.pkg.libs.find? (fun l => l.asid == asid && l.name == name && l.weak)

/-- The body of a definition, and the relocation records within it with names in place of indices (R363). -/
def bodyOf (ss : List Sec) (y : Sym) : List Byte :=
  match ss.find? (fun x => x.idx == y.sect) with | some x => fileBytes x.bytes y.value y.size | none => []
def bodyRels (ss : List Sec) (y : Sym) : List (Nat × Nat × Nat × List Byte) :=
  ((relsOf ss).filter (fun r => r.target == y.sect && y.value ≤ r.offset && r.offset < y.value + y.size)).map (fun r =>
    (r.offset - y.value, r.type, narrow 64 r.addend, (symAt ss r.sym).name))

/-- Are two strong definitions identical bodies (R363)? -/
def sameBody (ss : List Sec) (y : Sym) (l : LibSym) : Bool :=
  y.share && l.share && l.hash == y.hash && l.body == bodyOf ss y && l.rels == bodyRels ss y && l.body.length == y.size

/-- Does a library's strong definition clash with the context's (R362, R363)? -/
def dupSym (s : State) (asid : Nat) (ss : List Sec) (i : Nat) : Bool :=
  let y := symAt ss i
  y.bind == 1 && y.sect != 0 && (match strongLib s asid y.name with | some l => !sameBody ss y l | none => false)

/-- The address of symbol i for a reference in the object (R362, R363); none: undefined. -/
def resolve (s : State) (asid : Nat) (mod : Bool) (ss : List Sec) (b dbase i : Nat) : Option Nat :=
  let y := symAt ss i
  let strong := strongLib s asid y.name
  if y.sect ≠ 0 then
    match strong with
    | some l => if y.bind = 2 ∨ (!mod ∧ y.bind = 1) then some l.addr else some (ownAddr ss b dbase y)
    | none => some (ownAddr ss b dbase y)
  else match strong with
    | some l => some l.addr
    | none => match weakLib s asid y.name with
      | some l => some l.addr
      | none => if y.bind = 2 then some 0 else none

/-! ## Choosing B (R359) -/

/-- The first free base at or above PBASE: a span that is not free moves to the end of a page above. -/
def freeBase (s : State) (asid pbase n : Nat) : Option Nat :=
  let ends := ((s.pkg.pages ++ s.pkg.shoot.filterMap (·.old)).filter (fun p => p.asid == asid)).map (fun p => p.va + pageBytes p.size) ++
    (s.pkg.ctrPages.filter (fun p => p.asid == asid)).map (fun p => p.va + 4096)
  least ((pbase :: ends.filter (pbase < ·)).filter (fun c => c + n ≤ 2 ^ 56 && spanFree s asid c n))

/-- Choose B. -/
def chooseBase (s : State) (r : LoadReq) (pbase n : Nat) : Load Nat :=
  match r.base with
  | some b =>
    if b % 4096 ≠ 0 ∨ 2 ^ 56 ≤ b then .error { code := 14 }
    else if b + n ≤ 2 ^ 56 ∧ spanFree s r.asid b n then .ok b else .error { code := 12 }
  | none => match freeBase s r.asid pbase n with | some b => .ok b | none => .error { code := 12 }

/-- Physical memory above everything in use: where Klogar puts an image (notes/assumptions/60.md). -/
def freshFrame (s : State) : Nat :=
  let ends := ((s.pkg.pages ++ s.pkg.shoot.filterMap (·.old)).filter (fun p => p.remote.isNone)).map (fun p => p.frame + pageBytes p.size) ++
    s.pkg.migrs.map (fun m => m.frame + 2 ^ 30)
  roundUp (ends.foldl max 0) 4096

/-! ## The instance and its placement (R187, R233, R237, R298) -/

/-- The distance of two clusters of one die. -/
def clusterGap (j k : Nat) : Nat :=
  let x := fun (c : Nat) => c / 16 % 16
  let y := fun (c : Nat) => c / 256 % 16
  (max (x j) (x k) - min (x j) (x k)) + (max (y j) (y k) - min (y j) (y k))

/-- May two replicas stand at these cores? -/
def replicasApart (xdie : Bool) (j k : Nat) : Bool :=
  clusterOf j != clusterOf k && (if dieOf j = dieOf k then 6 ≤ clusterGap j k else xdie)

/-- Does a rectangle lie on its die? -/
def rectOk (r : Rect) : Bool :=
  r.origin < 2 ^ 14 && r.nr < 64 && r.nc < 64 && gridX r.origin + r.nc < 64 && gridY r.origin + r.nr < 64

/-- Does a list hold each element once? -/
def distinct : List Nat → Bool
  | [] => true
  | x :: xs => !xs.contains x && distinct xs

/-- Does Klogar's placement meet R187 and R298 for the redundancy modes of the entries? With its first version an instance gets as many
secondaries as these need; for a later version they must be enough. -/
def placementOk (s : State) (rects : List Rect) (second : List (Nat × List Nat)) (m : Nat) (xdie first : Bool) (reds : List Nat) : Bool :=
  let ps := rects.flatMap rectCores
  let all := ps ++ second.flatMap (·.2)
  let want := reds.foldl max 0
  rects != [] && rects.all rectOk && distinct all && all.all (fun k => k < 2 ^ 14 && !s.pkg.lost.contains k) && 2 ^ m ≤ ps.length &&
    ps.all (fun k =>
      let g := k :: (look k second).getD []
      want + 1 ≤ g.length && (!first || g.length == want + 1) && second.all (fun q => ps.contains q.1) &&
        g.all (fun i => g.all (fun j => i == j || replicasApart xdie i j)))

/-- The stage of a handler entry; its group is Klogar's, or the one of the stage of the same stream. -/
def stageOfEntry (tag : Nat) (const : List Byte) (group : List Nat) (e : Nat) : Stage :=
  { strm := bits e 159 144, vtag := tag, type := bits e 41 32, exports := exportList e, k := bits e 103 100,
    defaults := (List.range 4).map (fun i => BitVec.ofNat 64 (fileLE const (bits e 223 192 + 8 * i) 8)), group := group }

/-- The group of a stream. -/
def groupFor (r : LoadReq) (old : List Stage) (strm : Nat) : List Nat :=
  match old.find? (fun g => g.strm == strm) with | some g => g.group | none => (look strm r.stages).getD []

/-- Does the stage of an entry agree with the one of the resident version (R386), and is its group large enough (R237)? -/
def stageAgrees (old : List Stage) (e : Nat) : Bool :=
  old.all (fun g => g.strm != bits e 159 144 ||
    (g.k == bits e 103 100 && g.exports.length == (exportList e).length && g.type == bits e 41 32))
def groupOk (place group : List Nat) (e : Nat) : Bool :=
  bits e 103 100 ≤ group.length && distinct group && group.all (fun k => place.contains k)

/-! ## Local store fit (R360) -/

/-- The frames of some handlers. -/
def framesOf (wsb : Nat) (stks : List Nat) : List (Nat × Nat) := stks.map (fun n => (wsb, 1536 + n))

/-- Does the data block fit? `ws` are the ranges that it must not meet. -/
def lsFits (dbase dsize : Nat) (ws : List (Nat × Nat)) : Bool :=
  dbase + dsize ≤ 0x1F000 && !ws.any (fun w => meets dbase dsize w.1 w.2)

/-! ## Pins (R365, R366) -/

/-- The 256-byte lines that a range meets. -/
def linesOf (lo n : Nat) : List Nat := if n = 0 then [] else (List.range ((lo + n - 1) / 256 + 1 - lo / 256)).map (fun i => 256 * (lo / 256 + i))

/-- The pinned set of a version: pin entries, and the symbol extents of entries with PIN. -/
def pinSet (ss : List Sec) (st : Staged) (b : Nat) (addr : Nat → Nat) : List Nat :=
  let k := bytesOf ss 8
  let es := entriesOf ss st 5
  let ranges := (List.range (fileLE k 0 4)).map (fun i => (b + fileLE k (16 + 8 * i) 4, fileLE k (20 + 8 * i) 4)) ++
    (List.range es.length).filterMap (fun i =>
      if bit (es.getD i 0) 99 then
        ((relsOf ss).find? (fun r => r.type == 9 && r.target == indexOf ss 5 && r.offset == 32 * i)).map (fun r =>
          (addr r.sym, (symAt ss r.sym).size))
      else none)
  (ranges.flatMap (fun r => linesOf r.1 r.2)).eraseDups

/-- The first cluster in which a context's pins would exceed its quota, by a member in it; `place` are the cores of the placement with the
secondaries (R298). -/
def overQuota (s : State) (asid : Nat) (place lines : List Nat) : Option Nat :=
  let quota := min (tenantOf s asid).pinQuota (128 * 1024)
  place.find? (fun k =>
    let held := (s.pkg.pins.filter (fun p => p.1 == clusterOf k && p.2.1 == asid)).map (·.2.2)
    quota < 256 * (held ++ lines).eraseDups.length)

/-! ## The steps of R361 -/

/-- What a load has worked out. -/
structure Ready where
  h     : Nat
  ss    : List Sec
  b     : Nat
  st    : Staged
  addrs : List Nat
  pins  : List Nat

/-- The instance that a load request names, or a new one with Klogar's placement. -/
def targetInst (r : LoadReq) (h : Nat) (s : State) : Inst :=
  match r.inst with
  | some i => (look i s.pkg.insts).getD { asid := r.asid }
  | none =>
    let ps := r.rects.flatMap rectCores
    { asid := r.asid, placement := ps, rects := r.rects, second := r.second, owners := ps.take (2 ^ hf h 399 396),
      qwt := hf h 387 384, rwt := hf h 391 388, swt := hf h 395 392, actlim := r.actlim, xdie := bit h 400 }

/-- The checks of a module version against its instance: VTAG (R364), UPCTR (R387), BADENTRY (R386), PLACEMENT (R187, R237, R298),
LSFIT (R360). The window of the trap workspace is the one that a handler declares (R19). -/
def checkModule (s : State) (r : LoadReq) (h : Nat) (ss : List Sec) (x : Inst) : Load Unit := do
  let tag := hVtag h
  let es := entriesOf ss (ss.map (fun y => (y.idx, y.bytes))) 5
  must (x.versions.length ≤ 1 && x.versions.all (fun v => v.tag != tag && v.tag % 16 != tag % 16)) { code := 11 }
  let upc := r.upc.getD 1
  must (upc % 16 == 0 && (ctrPage s r.asid upc).isSome) { code := 13 }
  allEntries (indexOf ss 5) es.length (fun i => bits (es.getD i 0) 105 104 == 0 || stageAgrees x.stages (es.getD i 0))
  let reds := es.map (fun e => bits e 97 96) ++ x.versions.flatMap (fun v => v.handlers.map (·.redm))
  must (placementOk s x.rects x.second (if r.inst.isSome then 0 else hf h 399 396) x.xdie r.inst.isNone reds &&
    es.all (fun e => bits e 105 104 == 0 || groupOk x.placement (groupFor r x.stages (bits e 159 144)) e)) { code := 15 }
  let own := framesOf (hWsb h) (es.map (fun e => bits e 95 64))
  let trapWs := if hTrap h = 0xFFFFFFFF then []
    else es.flatMap (fun e => [(hTwp h, 8 * bits e 54 48), (hTwp h + 512, 64 * bits e 60 56)])
  let old := x.versions.flatMap (fun v => (v.gp, v.data.length) :: framesOf v.wsb (v.handlers.map (·.stk)))
  must (lsFits (hDbase h) (hDsize h) (own ++ trapWs ++ old)) { code := 10 }

/-- Steps 1 to 5 of R361. -/
def prepare (s : State) (r : LoadReq) : Load Ready := do
  let h ← checkHeader r.object
  let ss ← checkSections r.object h
  let mod := hIsMod h
  must (hTrap h == 0xFFFFFFFF || (hTrap h % 2 == 0 && hTrap h < sizeOf ss 1)) { code := 1 }
  must (!mod || (hf h 223 192 != 0 && nameOk (bytesOf ss 11) (hf h 223 192) && hDsize h == blockSize ss)) { code := 1 }
  checkEntries h ss
  let x := targetInst r h s
  if mod then checkModule s r h ss x
  let b ← chooseBase s r (hf h 127 64) (imageSpan ss)
  let rels := relsOf ss
  let used := fun (i : Nat) => rels.any (fun q => q.sym == i)
  must (mod || !(List.range (symCount ss)).any (dupSym s r.asid ss))
    (let i := ((List.range (symCount ss)).find? (dupSym s r.asid ss)).getD 0; { code := 5, sect := indexOf ss 10, index := i, sym := i })
  let found := (List.range (symCount ss)).map (resolve s r.asid mod ss b (hDbase h))
  match (List.range (symCount ss)).find? (fun i => used i && (found.getD i none).isNone) with
  | some i => .error { code := 4, sect := indexOf ss 10, index := i, sym := i }
  | none => do
    let addrs := found.map (fun a => a.getD 0)
    let st ← applyRels ss rels b (hDbase h) (fun i => addrs.getD i 0) rels (ss.map (fun y => (y.idx, y.bytes)))
    checkCode ss st
    let lines := if mod then pinSet ss st b (fun i => addrs.getD i 0) else []
    match overQuota s r.asid (membersOf x) lines with
    | some k => .error { code := 9, value := k }
    | none => .ok { h := h, ss := ss, b := b, st := st, addrs := addrs, pins := lines }

/-! ## Installation -/

/-- Bytes of a staged section, by type. -/
def stagedOf (d : Ready) (type : Nat) : List Byte := (look (indexOf d.ss type) d.st).getD []

/-- The bodies of a library's definitions that an identical one of its context replaces: section type, offset, length (R363). -/
def mergedBodies (s : State) (r : LoadReq) (d : Ready) : List (Nat × Nat × Nat) :=
  if hIsMod d.h then []
  else (List.range (symCount d.ss)).filterMap (fun i =>
    let y := symAt d.ss i
    if y.bind = 1 ∧ y.sect ≠ 0 ∧ (strongLib s r.asid y.name).isSome then
      (d.ss.find? (fun x => x.idx == y.sect)).map (fun x => (x.type, y.value, y.size))
    else none)

/-- Bytes of a section as they are installed: those of a merged body are not (R363). -/
def installedOf (s : State) (r : LoadReq) (d : Ready) (type : Nat) : List Byte :=
  (mergedBodies s r d).foldl (fun bs m =>
    if m.1 = type then bs.take m.2.1 ++ List.replicate (min m.2.2 (bs.length - m.2.1)) 0 ++ bs.drop (m.2.1 + m.2.2) else bs) (stagedOf d type)

/-- The image is mapped and written (R359). -/
def installImage (r : LoadReq) (d : Ready) (own : Option (Nat × Nat)) (s : State) : State :=
  let f := freshFrame s
  let t := roundUp (sizeOf d.ss 1) 4096
  let n := imageSpan d.ss
  let wr := match secOf d.ss 1 with | some x => x.wr | none => false
  let page := fun (i : Nat) => ({ asid := r.asid, va := d.b + 4096 * i, size := 0, frame := f + 4096 * i, die := r.hdie.getD 0 % 4,
                                  writable := wr && decide (4096 * i < t), exec := decide (4096 * i < t) } : Page)
  updPkg (fun g =>
    let c := clearFrame f n g
    { c with
      pages := c.pages ++ (List.range (n / 4096)).map page
      mem := writeBytes (writeBytes c.mem f (installedOf s r d 1)) (f + t) (installedOf s r d 2)
      images := c.images ++ [⟨r.asid, d.b, n, own⟩]
      tenants := if (look r.asid c.tenants).isSome then c.tenants else c.tenants ++ [(r.asid, {})] }) s

/-- A library's global definitions join its context's, but for bodies that are merged (R362, R363). -/
def installSyms (r : LoadReq) (d : Ready) (s : State) : State :=
  let news := (List.range (symCount d.ss)).filterMap (fun i =>
    let y := symAt d.ss i
    if y.sect = 0 || y.bind = 0 || (y.bind == 1 && (strongLib s r.asid y.name).isSome) then none
    else some ({ asid := r.asid, name := y.name, addr := ownAddr d.ss d.b 0 y, weak := y.bind == 2, share := y.share,
                 body := bodyOf d.ss y, rels := bodyRels d.ss y, hash := y.hash } : LibSym))
  updPkg (fun g => { g with libs := g.libs ++ news }) s

/-- The data block: .data with slot 0 of the GOT (R355), then .bss. -/
def dataBlock (d : Ready) : List Byte :=
  let bs := stagedOf d 3
  let got := (relsOf d.ss).any (fun q => q.type == 8)
  let bs := if got then patch 0 8 (hDbase d.h) bs else bs
  bs ++ List.replicate (hDsize d.h - bs.length) 0

/-- The version that a load makes. -/
def versionFrom (r : LoadReq) (d : Ready) (place : List Nat) : Version :=
  let es := entriesOf d.ss d.st 5
  let rs := entriesOf d.ss d.st 7
  { tag := hVtag d.h, base := d.b, gp := hDbase d.h, wsb := hWsb d.h
    handlers := es.map (fun e => { type := bits e 41 32, entry := d.b + bits e 31 0, nw := bits e 54 48, nv := bits e 60 56,
                                   stk := bits e 95 64, redm := bits e 97 96 })
    entries := (entriesOf d.ss d.st 6).map (fun e => d.b + bits e 31 0)
    states := (rs.filter (fun e => !bit e 64)).map (fun e =>
      (bits e 47 32, bits e 63 48, (rs.find? (fun y => bit y 64 && bits y 47 32 == bits e 47 32)).map (fun y =>
        (bits y 63 48, d.b + bits y 31 0))))
    tvec := (if hTrap d.h = 0xFFFFFFFF then 0 else d.b + hTrap d.h), twp := hTwp d.h, size := imageSpan d.ss
    textLo := d.b, textHi := d.b + sizeOf d.ss 1
    pins := ((place.map clusterOf).eraseDups).flatMap (fun c => d.pins.map (fun l => (c, l)))
    upc := r.upc.getD 0, data := dataBlock d, hdie := r.hdie.getD 0 % 4 }

/-- The stages of a version. -/
def stagesFrom (r : LoadReq) (d : Ready) (x : Inst) : List Stage :=
  ((entriesOf d.ss d.st 5).filter (fun e => bits e 105 104 == 1)).map (fun e =>
    stageOfEntry (hVtag d.h) (stagedOf d 2) (groupFor r x.stages (bits e 159 144)) e)

/-- A data block reaches a core, or the image of a displaced instance (R360); a core that its first residence awaits takes it then. -/
def giveData (inst : Nat) (x : Inst) (v : Version) (k : Nat) (s : State) : State :=
  if x.fresh.contains k then s else updHome k inst (rawPut v.gp v.data) (rawPut v.gp v.data) s

/-- A further version is staged on every core (R369, R385); with SWITCH 0 the switch messages go out. -/
def stageVersion (inst : Nat) (x : Inst) (r : LoadReq) (d : Ready) (s : State) : State :=
  let v := versionFrom r d (membersOf x)
  let t := updPkg (fun g => { g with
    insts := put inst { x with
      versions := x.versions ++ [v], staged := some v.tag, stages := x.stages ++ stagesFrom r d x } g.insts
    pins := (g.pins ++ v.pins.map (fun p => (p.1, x.asid, p.2))).eraseDups
    switches := if r.sw then g.switches else g.switches ++ x.placement.map (fun k => (k, inst)) }) s
  (membersOf x).foldl (fun t k => giveData inst x v k
    (setCore k (updInst inst (fun c => { c with staged := some v.tag }) (coreOf t k)) t)) t

/-- The first version: the instance begins, resident at once where all its cores are free, else displaced (R332). -/
def firstVersion (inst : Nat) (x : Inst) (r : LoadReq) (d : Ready) (s : State) : State :=
  let v := versionFrom r d (membersOf x)
  let ms := membersOf x
  let y := { x with versions := [v], newest := some v.tag, stages := stagesFrom r d x, fresh := ms }
  let free := ms.all (fun k => (coreOf s k).resident.isNone)
  let t := updPkg (fun g => { g with
    insts := put inst y g.insts
    pins := (g.pins ++ v.pins.map (fun p => (p.1, x.asid, p.2))).eraseDups
    saves := if free then g.saves else g.saves ++ ms.map (fun k => saveImage inst x.asid { id := k }) }) s
  let t := ms.foldl (fun t k => setCore k (updInst inst (fun _ => { newest := some v.tag }) (coreOf t k)) t) t
  reside inst y t

/-- Step 6 of R361. -/
def install (r : LoadReq) (d : Ready) (s : State) : State :=
  if hIsMod d.h then
    let inst := r.inst.getD r.newInst
    let x := targetInst r d.h s
    let t := installImage r d (some (inst, hVtag d.h)) s
    if r.inst.isSome then stageVersion inst x r d t else firstVersion inst x r d t
  else installSyms r d (installImage r d none s)

/-- May a context have this ASID: 16 bits, one that the package holds, or a further one of at most 4,096 (R325)? An installation makes the
package hold it. -/
def asidOk (s : State) (asid : Nat) : Bool :=
  asid < 2 ^ 16 && ((look asid s.pkg.tenants).isSome || s.pkg.tenants.length < 4096)

/-- Does the request name a context, and an instance of it or a new one that is free? -/
def requestOk (s : State) (r : LoadReq) : Bool :=
  asidOk s r.asid && match r.inst with
  | some i => (match look i s.pkg.insts with | some x => x.asid == r.asid | none => false)
  | none => (look r.newInst s.pkg.insts).isNone

/-- The counter pages that a controller asks for with a load (R286); one that cannot be had is left out. -/
def allocPages (r : LoadReq) (s : State) : State :=
  r.ctrs.foldl (fun t p => if p.1 % 16 = 0 ∧ p.1 < 2 ^ 14 ∧ ctrPageOk t r.asid p.2 (p.1 / 16) then addCtrPage r.asid p.2 (p.1 / 16) t else t) s

/-- LOAD_REQUEST (R361): everything is installed in one step, or nothing is and the error record goes to the controller (R364). -/
def execLoadRequest (r : LoadReq) (s : State) : Host.Outcome State Fault Refusal :=
  .next (
    if !requestOk s r then s
    else
      let s := allocPages r s
      match prepare s r with
      | .ok d => install r d s
      | .error e => updPkg (fun g => { g with loadErrs := g.loadErrs ++ [(r.asid, errBits e)] }) s)

end Sys2Proof.Machine
end

