-- ==== Sys2Proof/Machine/Repair.lean ====
section
/-! DEFINITION. Errors, spares and repair over hours (R405 to R414), and the links (R399 to R401). -/

namespace Sys2Proof.Machine

/-! ## The L2 (R406) -/

/-- Every L2 slice of a die records a mode switch. -/
def recordSwitch (die : Nat) (s : State) : State :=
  (List.range 256).foldl (fun t i => bankErr { unit := sliceUnit die i, cause := 8 } t) s

/-- Ways of each set that a slice of a die uses for lines: 14 in DEC-TED, whose check bits take the others (R406). -/
def l2Ways (s : State) (die : Nat) : Nat := if s.pkg.decTed.contains die then 14 else 16

/-- What a die's L2 holds, in KiB: 256 slices with ways of 256 KiB each, less those retired (R406, R412). -/
def l2KiB (s : State) (die : Nat) : Nat :=
  256 * 256 * l2Ways s die - 256 * (s.pkg.waysLost.filter (fun u => u / 2 ^ 16 % 4 == die)).length

/-- L2_DEC_TED_SWITCH (R406). Accesses continue, dirty lines of ways 14 and 15 are written back and pins move: no line is lost or read stale
and no pin goes. The granule is a sector from then on (R405), and the die's L2 holds less. -/
def execL2DecTedSwitch (die : Nat) (s : State) : Host.Outcome State Fault Refusal :=
  .next (if die < 4 && !s.pkg.decTed.contains die then recordSwitch die (updPkg (fun g => { g with decTed := g.decTed ++ [die] }) s) else s)

/-- L2_SEC_DED_RETURN (R406): ways 14 and 15 return empty. -/
def execL2SecDedReturn (die : Nat) (s : State) : Host.Outcome State Fault Refusal :=
  .next (if s.pkg.decTed.contains die then
    recordSwitch die (updPkg (fun g => { g with decTed := g.decTed.filter (· != die) }) s) else s)

/-! ## Spares and degradation (R412 to R414) -/

/-- The class and the die of a unit (R409). -/
def unitClass (unit : Nat) : Nat := unit / 2 ^ 12 % 16
def unitDie (unit : Nat) : Nat := unit / 2 ^ 16 % 4

/-- Rows that a unit has replaced. -/
def rowsUsed (g : Package) (unit : Nat) : Nat := (look unit g.rows).getD 0

/-- The conditions of MG_REPL as the fused and recorded state gives them (R414). -/
def replNow (g : Package) : Nat :=
  b2n (g.spareUsed != [] || g.waysLost != [] || g.rows.any (fun r => unitClass r.1 == 3 && 64 < r.2 + 16) || g.lanes != 0 || g.badLinks != []) +
    2 * b2n (g.lost != [] || g.waysLost != [] || 2 ≤ g.lanes)

/-- The replacement request (MG_REPL bit 0); the alert is raised when it is first set (R414). -/
def askReplacement (s : State) : State := updPkg (fun g => { g with repl := g.repl ||| 1, alert := true }) s

/-- Capacity has fallen: MG_REPL bit 1 and MG_STATE 5 (R414, R403). -/
def degrade (s : State) : State :=
  updPkg (fun g => { g with repl := g.repl ||| 2, mgState := if g.mgState = 4 then 5 else g.mgState }) s

/-- A spare of an L2 slice or of a DRAM channel is used (R412): a row of 32 in a slice, then one of two ways; a row of 64 in a channel, of
which fewer than 16 left ask for a replacement (R414). -/
def spareRow (unit : Nat) (s : State) : State :=
  let n := rowsUsed s.pkg unit
  let used := bankErr { unit := unit, cause := 9 } s
  let row := updPkg (fun g => { g with rows := put unit (n + 1) g.rows }) used
  if unitClass unit = 3 then (if 64 ≤ n then s else if 64 < n + 1 + 16 then askReplacement row else row)
  else if n < 32 then row
  else if (s.pkg.waysLost.filter (· == unit)).length < 2 then
    degrade (askReplacement (updPkg (fun g => { g with waysLost := g.waysLost ++ [unit] }) used))
  else s

/-- Bytes of a granule of an L2 slice or a DRAM channel (R405, R406). -/
def granuleOf (s : State) (unit : Nat) : Nat := if unitClass unit = 3 || s.pkg.decTed.contains (unitDie unit) then 64 else 8

/-- A granule of n bytes of home memory becomes poisoned. -/
def markHome (n pa : Nat) (s : State) : State :=
  updPkg (fun g => if n = 64 then { g with poisonSec := mark (pa / 64) g.poisonSec } else { g with poison := mark (pa / 8) g.poison }) s

/-- What the code of a slice or channel finds at a physical address (R405, R412): a corrected error is counted, an uncorrectable one marks the
granule; a row that yields one, or repeated corrections, is replaced. -/
def homeFinds (unit core addr : Nat) (found : EccResult) (s : State) : State :=
  let n := granuleOf s unit
  match found with
  | .clean => s
  | .corrected =>
    let t := bankErr { unit := unit, core := core, cause := 1, addr := addr / n * n } s
    if Config.repeated s.freeCtr unit then spareRow unit (bump t) else t
  | .uncorrectable =>
    spareRow unit (bankErr { unit := unit, core := core, cause := 2, ue := true, addr := addr / n * n } (markHome n addr s))

/-- Does a slice or channel hold a physical address: is it of the die that is the home of the page there? -/
def unitHolds (s : State) (unit addr : Nat) : Bool :=
  (unitClass unit == 2 || unitClass unit == 3) &&
    s.pkg.pages.all (fun p => p.remote.isSome || !(p.frame ≤ addr && addr < p.frame + pageBytes p.size) || p.die == unitDie unit)

/-- PATROL_READ (R411): what the code of the granule at a physical address finds. It never changes a value and consumes no mark. -/
def execPatrolRead (unit addr : Nat) (found : EccResult) (s : State) : Host.Outcome State Fault Refusal :=
  .next (if unitHolds s unit addr then homeFinds unit 0 addr found s else s)

/-- The core takes the place of its spare: the state moves as a pre-emption and a resumption there would move it (R413). -/
def moveToSpare (s : State) : State :=
  let t := flushNow (fun _ => true) s
  updCore (fun c => match c.resident with
    | some i => { restored (saveImage i (asidOfInst t i) c) c with suspects := 0 }
    | none => { c with suspects := 0 }) t

/-- The rectangles and secondaries of a re-placement. -/
def replacementOf (s : State) (inst : Nat) : List Rect × List (Nat × List Nat) :=
  let r := Config.replacement s.freeCtr inst
  (r.1.map (fun x => ⟨x.1, x.2.1, x.2.2⟩), r.2)

/-- May an instance be re-placed so: rectangles of the same shapes outside the cluster, and R187 and R298 met? -/
def replaceable (s : State) (x : Inst) (cluster : Nat) (rs : List Rect) (second : List (Nat × List Nat)) : Bool :=
  rs.map (fun r => (r.nr, r.nc)) == x.rects.map (fun r => (r.nr, r.nc)) &&
    (rs.flatMap rectCores ++ second.flatMap (·.2)).all (fun k => clusterOf k != cluster) &&
    placementOk s rs second 0 x.xdie false (x.versions.flatMap (fun v => v.handlers.map (·.redm)))

/-- The place in a new list of what stands at a place of an old one. -/
def moved (old new : List Nat) (k : Nat) : Nat := match old.findIdx? (· == k) with | some i => new.getD i k | none => k

/-- A message on its way to a core of an instance that moves goes to its new core. -/
def redirect (pkg inst : Nat) (mv : Nat → Nat) (f : Flight) : Flight :=
  if f.pkg = pkg ∧ hInst f.msg.hdr = inst then { f with dest := mv f.dest } else f

/-- An instance moves to new cores: its sources go with it, its first residence there is to come (R332, R413). -/
def replaceInst (inst : Nat) (x : Inst) (rs : List Rect) (second : List (Nat × List Nat)) (s : State) : State :=
  let old := x.placement
  let new := rs.flatMap rectCores
  let mv := moved old new
  let y := { x with rects := rs, placement := new, second := second, owners := x.owners.map mv,
                    stages := x.stages.map (fun g => { g with group := g.group.map mv }), fresh := new ++ second.flatMap (·.2) }
  let roles := instOn (coreOf s (old.getD 0 0)) inst
  let image := fun (k : Nat) => match saveOf s k inst with | some sv => sv.image | none => imageOf (coreOf s k)
  let saves := (List.range new.length).map (fun i =>
    let c := image (old.getD i 0)
    saveImage inst x.asid { id := new.getD i 0, spill := c.inbound ++ c.spill, ready := c.ready, items := c.items, fwd := c.fwd, insts := put inst roles [] })
  let seconds := (second.flatMap (·.2)).map (fun k => saveImage inst x.asid { id := k, insts := put inst roles [] })
  let slot := fun (z : Slot) => if z.inst = inst && z.pkg == s.pkg.pkgId.toNat then
    { z with placement := z.placement.map mv, owners := z.owners.map mv, stages := z.stages.map (fun g => (g.1, g.2.1, mv g.2.2)) } else z
  let t := onGroup (membersOf x) (fun s => updCore (fun c => if c.resident == some inst then bare c else c) s) s
  let t := updPkg (fun g => { g with
    insts := put inst y g.insts
    saves := g.saves.filter (fun sv => sv.inst != inst) ++ saves ++ seconds
    msgs := g.msgs.map (redirect g.pkgId.toNat inst mv)
    armOut := g.armOut.map (redirect g.pkgId.toNat inst mv)
    exps := g.exps.map (fun f => if f.inst = inst then { f with dest := mv f.dest } else f) }) t
  let t := (membersOf y).foldl (fun t k => setCore k (updInst inst (fun _ => roles) (coreOf t k)) t) t
  let slots := fun (c : Core) => { c with slots := c.slots.map (fun z => (z.1, slot z.2)) }
  reside inst y { t with core := slots t.core, others := t.others.map (fun o => (o.1, slots o.2)) }

/-- Klogar re-places an instance that uses a lost core, or reports that it cannot (R413). -/
def rePlace (k inst : Nat) (x : Inst) (s : State) : State :=
  let r := replacementOf s inst
  if replaceable s x (clusterOf k) r.1 r.2 then replaceInst inst x r.1 r.2 (bump s)
  else updPkg (fun g => { g with reports := g.reports ++ [(inst, 2, k)] })
    (logErr { inst := inst, core := k, cause := 7, unit := coreUnit k } (bump s))

/-- Is an instance at rest on every core that it uses: no activation there, pre-empted ones in its images among them (R225)? -/
def atRest (s : State) (inst : Nat) (x : Inst) : Bool :=
  (membersOf x).all (fun k => match saveOf s k inst with
    | some sv => sv.image.act.isNone
    | none => (coreOf s k).resident != some inst || ((coreOf s k).act.isNone && quiet (coreOf s k)))

/-- What an instance has on a core. -/
def homeCore (s : State) (k inst : Nat) : Core := match saveOf s k inst with | some sv => sv.image | none => coreOf s k

/-- Has every owner of an instance emptied its sources (R236)? -/
def ownersEmpty (s : State) (inst : Nat) (x : Inst) : Bool := x.owners.all (fun k => !coreBusy (homeCore s k inst))

/-- The queues of an instance on a core that is lost are emptied: their messages are on their way again, before every other one to that core,
and reach the core that takes its place (R191, R413). The core itself dispatches nothing more (R319). Stream items move with their member. -/
def recallFrom (k inst : Nat) (s : State) : State :=
  let c := homeCore s k inst
  let here := s.pkg.pkgId.toNat
  let again := fun (m : Msg) => ({ msg := m, src := hCore m.hdr, ctx := 0, dest := k, pkg := here, inst := inst, recalled := true } : Flight)
  let cleared := fun (c : Core) => { c with inbound := [], spill := [], ready := [] }
  updHome k inst cleared cleared (updPkg (fun g => { g with
    msgs := (c.inbound ++ c.spill).map again ++ g.msgs, armOut := c.ready.map again ++ g.armOut }) s)

/-- CORE_RETIRE (R319, R412, R413): a core with three suspect marks, or one whose logic has failed its self-test, between two activations. -/
def execCoreRetire (r : Retirement) (s : State) : Host.Outcome State Fault Refusal :=
  let k := r.core
  .next (
    let s := if r.failed && (coreOf s k).suspects < 3 then setCore k { coreOf s k with suspects := 3 } s else s
    let c := coreOf s k
    let cl := clusterOf k
    if c.suspects < 3 || c.act.isSome || !quiet c || c.dead then s
    else if !s.pkg.spareUsed.contains cl then
      askReplacement (bankErr { unit := coreUnit k, core := k, cause := 9 }
        (updPkg (fun g => { g with spareUsed := g.spareUsed ++ [cl] }) (withCore k s moveToSpare)))
    else
      let users := s.pkg.insts.filter (fun y => (membersOf y.2).contains k)
      let s := users.foldl (fun t y => recallFrom k y.1 t) s
      if !users.all (fun y => atRest s y.1 y.2 && ownersEmpty s y.1 y.2) then s
      else
        let t := degrade (updPkg (fun g => { g with lost := g.lost ++ [k] }) (setCore k { coreOf s k with dead := true } s))
        users.foldl (fun t y => rePlace k y.1 y.2 t) t)

/-! ## Links (R399 to R401, R405, R412) -/

/-- The unit of the PKL port. -/
def pklUnit : Nat := 6 * 2 ^ 12

/-- A destination package has no route any more. -/
def loseRoute (dest : Nat) (s : State) : State := updPkg (fun g => { g with routes := Machine.drop dest g.routes }) s

/-- A mesh or data network link has exhausted its retries: it is marked failed, and its router routes around it (R412, R414). -/
def meshFails (unit : Nat) (s : State) : State :=
  if s.pkg.badLinks.contains unit then s
  else askReplacement (bankErr { unit := unit, cause := 3 } (updPkg (fun g => { g with badLinks := g.badLinks ++ [unit] }) s))

/-- The sub-port that lane n belongs to runs at the next smaller width (R414). -/
def narrowPort (n : Nat) (ws : List Nat) : List Nat :=
  mapAt (fun w => w / 2) (n / (16 / max ws.length 1)) ws

/-- A lane of the PKL port has exhausted its retries: the spare takes its place once, then its sub-port runs narrower (R412, R414). -/
def laneFails (n : Nat) (s : State) : State :=
  if 16 < n || 17 ≤ s.pkg.lanes then s
  else
    let t := askReplacement (bankErr { unit := pklUnit, cause := if s.pkg.lanes = 0 then 9 else 3 }
      (updPkg (fun g => { g with lanes := g.lanes + 1 }) s))
    if s.pkg.lanes = 0 then t else degrade (updPkg (fun g => { g with subWidths := narrowPort n g.subWidths }) t)

/-- LINK_RETRY (R405): a retry that succeeds is a corrected error, the flit is delivered once; the eighth attempt that fails exhausts the
retries of the link. -/
def execLinkRetry (unit : Nat) (ok : Bool) (s : State) : Host.Outcome State Fault Refusal :=
  .next (
    let n := (look unit s.pkg.retries).getD 0 + 1
    let gone := updPkg (fun g => { g with retries := Machine.drop unit g.retries }) s
    if ok then bankErr { unit := unit, cause := 1 } gone
    else if n < 8 then updPkg (fun g => { g with retries := put unit n g.retries }) s
    else if unitClass unit = 6 then laneFails 0 gone else meshFails unit gone)

/-- LINK_FAILURE (R401, R412, R414). -/
def execLinkFailure (f : LinkFault) (s : State) : Host.Outcome State Fault Refusal :=
  .next (match f with
    | .mesh unit => meshFails unit s
    | .lane n => laneFails n s
    | .package dest => bankErr { unit := pklUnit, cause := 3 } (loseRoute dest s))

/-- A message that the PKL port has taken in, on its way to a core of this package. Its sender there is told from others by its core and
package (R191). -/
def fromPort (here core : Nat) (m : Msg) : Flight :=
  { msg := m, src := portCore + hPkg m.hdr * 2 ^ 14 + hCore m.hdr, ctx := 0, dest := core, pkg := here, inst := hInst m.hdr }

/-- What a flit that has reached its package does: an item goes to the home of its stream (R238), what an arm sent to a ready ring (R235). The
port refuses an add to no counter page of the context (R183), and a copy without translation; the sending package learns of it. -/
def flitArrives (b : Payload) (s : State) : State :=
  match b with
  | .message core hdr t0 t1 => updPkg (fun g => { g with msgs := g.msgs ++ [fromPort g.pkgId.toNat core { hdr := hdr, t0 := t0, t1 := t1 }] }) s
  | .item strm core hdr t0 t1 =>
    updPkg (fun g => { g with msgs := g.msgs ++ [fromPort g.pkgId.toNat core { hdr := hdr, t0 := t0, t1 := t1, strm := some strm }] }) s
  | .armed core hdr t0 t1 =>
    updPkg (fun g => { g with armOut := g.armOut ++ [fromPort g.pkgId.toNat core { hdr := hdr, t0 := t0, t1 := t1, acq := some 4 }] }) s
  | .copyWrite asid va data => asCreamery (fun s => if writableRange s asid va data.length then homeWrite asid va data s else s) s
  | .ctrAdd asid va inc =>
    if va % 8 = 0 ∧ (ctrPage s asid va).isSome then
      applyAdd { asid := asid, va := va, inc := inc, core := portCore, inst := 0, stamp := 0 } s
    else s
  | .other => s

/-- FLIT_FORWARD (R399, R401): delivered here, sent on by the table, or discarded without a route or after 8 hops, which make its destination
unreachable. -/
def execFlitForward (f : Flit) (s : State) : Host.Outcome State Fault Refusal :=
  .next (
    if f.dest = s.pkg.pkgId.toNat then flitArrives f.body s
    else if 8 ≤ f.hops then loseRoute f.dest s
    else if (look f.dest s.pkg.routes).isNone then s
    else updPkg (fun g => { g with flits := g.flits ++ [{ f with hops := f.hops + 1 }] }) s)

/-- Is there traffic to a package that has not left (R400)? -/
def trafficTo (s : State) (dest : Nat) : Bool :=
  s.pkg.msgs.any (fun f => f.pkg == dest) || s.pkg.armOut.any (fun f => f.pkg == dest) ||
    (coreIds s).any (fun k => (coreOf s k).chans.any (fun c => c.q.any (fun e => (e.begun || e.committed) && copyRemote e.cmd == some dest)))

/-- Does the PKL port run a sub-port (R399, R414)? -/
def subPort (s : State) (p : Nat) : Bool := 0 < s.pkg.subWidths.getD p 0

/-- ROUTE_CHANGE (R400, R401): after the traffic has drained, to a sub-port that the port runs; a restored route takes messages again. -/
def execRouteChange (dest : Nat) (sub : Option Nat) (s : State) : Host.Outcome State Fault Refusal :=
  .next (
    if trafficTo s dest || dest = s.pkg.pkgId.toNat || 4096 ≤ dest then s
    else match sub with
      | some p => if !subPort s p then s else updPkg (fun g => { g with routes := put dest p g.routes, cutOff := g.cutOff.filter (fun x => x.2 != dest) }) s
      | none => loseRoute dest s)

end Sys2Proof.Machine
end

