-- ==== Sys2Proof/Machine/Manage.lean ====
section
/-! DEFINITION. The management interface (R402 to R404, R409, R414), power (R267) and the debug port (R415 to R417). -/

namespace Sys2Proof.Machine

/-! ## Bring-up, power, registers -/

/-- The root ports that the device runs (R395). -/
def rootPorts : Nat := match Config.portMode % 3 with | 0 => 4 | 1 => 8 | _ => 16

/-- The lanes of the PKL port's sub-ports (R399). -/
def pklPorts : List Nat := match Config.subPorts % 3 with | 0 => [16] | 1 => [8, 8] | _ => [4, 4, 4, 4]

/-- BRING_UP (R403), which fixes how the root ports and the PKL port run (R395, R399): the next state; what is fused shows in MG_REPL (R414).
From 4 it goes to 5 when capacity has fallen, or to 6. A package without power begins again at 0. -/
def execBringUp (degraded failed : Bool) (s : State) : Host.Outcome State Fault Refusal :=
  .next (updPkg (fun g =>
    if !g.powered then { g with powered := true, mgState := 0 }
    else if g.mgState < 4 then { g with mgState := g.mgState + 1, ports := rootPorts, subWidths := pklPorts, repl := replNow g }
    else if failed then { g with mgState := 6 }
    else if degraded && g.mgState == 4 && g.repl.testBit 1 then { g with mgState := 5 } else g) s)

/-- POWER_THROTTLE (R404): MG_PWR takes the mean, MG_TEMP the hottest die's temperature (R402). Above the cap the MXU is spaced out until the
mean falls below it, which changes timing only. -/
def execPowerThrottle (mean : Nat) (s : State) : Host.Outcome State Fault Refusal :=
  .next (updPkg (fun g => { g with
    pwr := mean % 4096, temp := Config.hottest s.freeCtr % 256
    throttled := if g.throttled then g.pwrCap ≤ mean % 4096 else g.pwrCap < mean % 4096 }) (bump s))

/-- The management registers (R402, R414) as a read finds them, by their offset. -/
def mgRead (g : Package) (off : Nat) : Option Nat :=
  match off with
  | 0x00 => some (0x0740 + Config.revision % 2 ^ 16 * 2 ^ 16)
  | 0x08 => some (Config.features % 2 ^ 8)
  | 0x10 => some g.pkgId.toNat
  | 0x18 => some (g.mgState % 16)
  | 0x20 => some g.pwrCap
  | 0x28 => some g.pwr
  | 0x30 => some g.temp
  | 0x38 => some (g.repl % 4)
  | 0x40 => some ((List.range 4).foldl (fun n d => n + b2n (g.decTed.contains d) * 2 ^ d) 0)
  | 0x48 => some ((1024 - g.spareUsed.eraseDups.length) + g.waysLost.eraseDups.length % 2 ^ 12 * 2 ^ 12 + g.lanes % 2 ^ 8 * 2 ^ 24)
  | _ => none

/-! ## Error banks (R409) -/

/-- An error record in its 64 bytes. -/
def recordBits (e : ErrRec) : BitVec 512 :=
  BitVec.ofNat 512 (b2n e.ue + e.cause % 2 ^ 8 * 2 ^ 8 + e.unit % 2 ^ 18 * 2 ^ 64 + e.sigs % 2 ^ 128 * 2 ^ 128 + e.inst % 2 ^ 16 * 2 ^ 288 +
    e.asid % 2 ^ 16 * 2 ^ 304 + e.detail % 2 ^ 64 * 2 ^ 320 + e.time % 2 ^ 64 * 2 ^ 384 + e.addr % 2 ^ 64 * 2 ^ 448)

/-- BSTAT of a bank, with a core's suspect marks. -/
def bstat (b : Bank) (susp : Nat) : Nat :=
  b2n b.record.isSome + 2 * b2n b.ovfUe + 4 * b2n b.ovfCe + susp % 16 * 2 ^ 4 + b.cecnt % 2 ^ 24 * 2 ^ 8 + b.uecnt % 2 ^ 32 * 2 ^ 32

/-- The core whose bank a unit number names (R409). -/
def unitCore (unit : Nat) : Option Nat := if unit / 2 ^ 12 % 16 = 0 then some (unit / 2 ^ 16 % 4 * 4096 + unit % 4096) else none

/-- The bank of a unit as Klogar and the management interface read it: its record, then BSTAT. -/
def bankRead (s : State) (unit : Nat) : BitVec 512 × Nat :=
  let b := (look unit s.pkg.banks).getD {}
  (match b.record with | some e => recordBits e | none => 0, bstat b (match unitCore unit with | some k => (coreOf s k).suspects | none => 0))

/-- BAR 0 as the management interface reads its doublewords: the registers, and from 0x400_0000 on 128 bytes for each unit, the record
first and BSTAT at +64 (R402, R409). -/
def barRead (s : State) (off : Nat) : Option Nat :=
  let unit := (off - 0x4000000) / 128
  let i := off % 128 / 8
  if off % 8 ≠ 0 then none
  else if off < 0x4000000 then mgRead s.pkg off
  else if 2 ^ 18 ≤ unit then none
  else if i < 8 then some ((bankRead s unit).1.toNat / 2 ^ (64 * i) % 2 ^ 64)
  else if i = 8 then some (bankRead s unit).2 else none

/-- MG_PWRCAP_WRITE (R402). -/
def execMgPwrcapWrite (v : Nat) (s : State) : Host.Outcome State Fault Refusal :=
  .next (updPkg (fun g => { g with pwrCap := if 600 ≤ v % 4096 ∧ v % 4096 ≤ 2400 then v % 4096 else g.pwrCap }) s)

/-- MG_PKGID_WRITE (R402). -/
def execMgPkgidWrite (v : Nat) (s : State) : Host.Outcome State Fault Refusal :=
  .next (updPkg (fun g => { g with pkgId := if g.mgState ≤ 3 then BitVec.ofNat 12 v else g.pkgId }) s)

/-- BSTAT_CLEAR (R409): writing 1 to BSTAT[0] clears the record, the counts and flags, and a core's suspect marks. -/
def execBstatClear (unit v : Nat) (s : State) : Host.Outcome State Fault Refusal :=
  .next (
    if v % 2 = 0 then s
    else
      let t := updPkg (fun g => { g with banks := Machine.drop unit g.banks }) s
      match unitCore unit with | some k => setCore k { coreOf t k with suspects := 0 } t | none => t)

/-- POWER_LOSS (R267, R412): what is fused and what storage has made durable stays. -/
def execPowerLoss (s : State) : Host.Outcome State Fault Refusal :=
  .next { s with
    core := { id := s.core.id }
    others := []
    turns := []
    pkg := { powered := false, spareUsed := s.pkg.spareUsed, lost := s.pkg.lost, waysLost := s.pkg.waysLost, rows := s.pkg.rows,
             lanes := s.pkg.lanes, spaces := s.pkg.spaces.map (fun x => { x with data := x.durable }) } }

/-! ## Halting (R415) -/

/-- DEBUG_HALT: at an issue boundary, long results written, waits cancelled, the gang left; it waits for the end of a clear (R139). -/
def execDebugHalt (k : Nat) (s : State) : Host.Outcome State Fault Refusal :=
  .next (withCore k s (fun s => if clearing s.core then s else haltCore s))

/-- DEBUG_RESUME: it reopens no window (R36). The debugger enables break capture for what follows, or not (R105, notes/assumptions/95.md). -/
def execDebugResume (r : Resumed) (s : State) : Host.Outcome State Fault Refusal :=
  .next (withCore r.core s (updCore (fun c =>
    if c.halted then { closeAll c with halted := false, stepCtx := none, breakCapture := r.capture } else c)))

/-- DEBUG_STEP: context h of a halted core issues one instruction at its next turn; it reopens no window (R36). -/
def execDebugStep (k h : Nat) (s : State) : Host.Outcome State Fault Refusal :=
  .next (withCore k s (updCore (fun c => if c.halted then { closeAll c with stepCtx := some h } else c)))

/-! ## Reading (R416) -/

/-- The event records of a held output, as R306 lays them out. -/
def heldRecords (e : Held) : List (BitVec 256) :=
  let msg := fun (m : Msg) => [recordOf 0x10 e.ctx 16 0 0 m.hdr.toNat, recordOf 0x11 e.ctx 16 0 0 (m.t0.toNat + m.t1.toNat * 2 ^ 64)]
  match e.out with
  | .msg m | .reply m => msg m
  | .arm va th m => recordOf 0x12 e.ctx 8 0 va th :: msg m
  | .add va inc => [recordOf 0x20 e.ctx 8 0 va inc]
  | .nt va bs => [recordOf 3 e.ctx bs.length 0 va (numLE bs)]
  | .stash va bs => (List.range bs.length).map (fun i => recordOf 2 e.ctx 1 0 (va + i) (bs.getD i 0).toNat)

/-- The pushes of open segments as event records (R416): MXU, copy and storage commands, each in its four words. -/
def pushRecords (s : State) : List (BitVec 256) :=
  let c := s.core
  let four := fun (kind h addr : Nat) (cmd : Cmd) => (List.range 4).map (fun i => recordOf kind h 16 i addr (cmd.toNat / 2 ^ (128 * i)))
  (c.mxu.q.filter (fun e => !e.committed && owns c e.stamp e.inst)).flatMap (fun e => four 0x30 e.ctx e.scale.toNat e.cmd) ++
  (List.range 4).flatMap (fun i => ((chanOf c i).q.filter (fun e => !e.committed && owns c e.stamp e.inst)).flatMap (fun e => four 0x31 e.ctx i e.cmd)) ++
  c.stoHeld.flatMap (fun e => four 0x32 e.ctx 0 e.cmd)

/-- The stores of open segments as event records: tagged stash bytes, and the stores that the journals of PAIR and TRIAD modes name, with
the values that stand there. -/
def storeRecords (s : State) : List (BitVec 256) :=
  let c := s.core
  c.wins.flatMap (fun w => match w with
    | some w => w.tagged.map (fun t => recordOf 2 t.2 1 0 (w.va + (t.1 - w.base)) (memRead c.ls t.1).toNat)
    | none => []) ++
  (List.range 11).flatMap (fun h => (c.ctxs.getD h {}).journal.reverse.map (fun j => recordOf 1 h j.2.length 0 j.1 (readLE c.ls j.1 j.2.length)))

/-- The held outputs of the open segments (R249, R416), those of the holding buffer first. -/
def heldList (s : State) : List (List (BitVec 256)) :=
  (heldOf none s).map heldRecords ++ (pushRecords s).map (fun r => [r]) ++ (storeRecords s).map (fun r => [r])

/-- The status doubleword of a queue entry: 0 queued, 1 its segment has not committed, 2 it waits for operands. -/
def mxuStatus (c : Core) (e : MxuCmd) : Nat :=
  if e.begun then (if (nextTile c e false).isNone || (nextTile c e true).isNone then 2 else 0)
  else if mxuGated e && !e.committed then 1 else 0
def chanStatus (e : CopyCmd) : Nat := if !e.begun && !copyInbound e.cmd && !e.committed then 1 else 0

/-- A system register as the debug port reads it: in context h, its own core's value. -/
def debugSys (h n : Nat) (s : State) : Nat :=
  if n = 21 then (match s.core.act with | some a => a.redm | none => 0)
  else if n = 22 then (match s.core.act with | some a => a.rplc | none => 0)
  else match readSys n (updAct (fun a => { a with redm := 0 }) { s with core := { s.core with cur := h } }) with
    | .ok r => r.1
    | .error _ => 0

/-- The values that a read answers, in order. -/
def debugValues (t : DebugTarget) (s : State) : List Nat :=
  let c := s.core
  match t with
  | .wreg h n => [readLE c.ls ((ctxAt s h).wp.toNat + 8 * n) 8]
  | .vreg h n => [readLE c.ls ((ctxAt s h).wp.toNat + 512 + 64 * n) 64]
  | .sreg h n => if n < 28 then [debugSys h n s] else []
  | .lsByte a => [(if a < 0x1F000 then memRead c.ls a else if a < 0x20000 then hwByte c a else 0).toNat]
  | .memByte pa => [(memRead s.pkg.mem pa).toNat]
  | .mxuEntry i => match c.mxu.q[i]? with | some e => [e.cmd.toNat + mxuStatus c e * 2 ^ 512] | none => []
  | .chanEntry ch i => match (chanOf c ch).q[i]? with | some e => [e.cmd.toNat + chanStatus e * 2 ^ 512] | none => []
  | .held i => ((heldList s).getD i []).map (·.toNat)
  | .counter asid va =>
    if (ctrPage s asid va).isSome then
      ctrVal s asid va :: (s.pkg.waiters.filter (fun w => w.asid == asid && w.va == va)).map (fun w =>
        w.core + w.ctx * 2 ^ 16 + w.th * 2 ^ 32)
    else []
  | .snap h j => [(match (ctxAt s h).snap with | some r => memRead r j | none => 0).toNat]
  | .icache asid va => (c.icache.filter (fun x => x.1 == asid && x.2.1 == va)).map (fun x => x.2.2.toNat)
  | .cacheByte pa => [(clusterByte s (clusterOf c.id) pa).toNat]

/-- DEBUG_READ: on a halted core. -/
def execDebugRead (k : Nat) (t : DebugTarget) (s : State) : Host.Outcome State Fault Refusal :=
  .next (withCore k s (fun s =>
    if s.core.halted then updPkg (fun g => { g with debugOut := g.debugOut ++ debugValues t s }) s else s))

/-! ## Injection (R417) -/

/-- Write n bytes of the local store, or flip the bits that are set; the check bits follow. In the hardware region only bytes of SNAPSEL
are written (R22, R23). -/
def injectLs (a n : Nat) (xor : Bool) (v : Nat) (c : Core) : Core :=
  if a + n ≤ 0x1F000 then
    let old := readLE c.ls a n
    { c with ls := writeLE c.ls a n (if xor then old ^^^ v else v), poison := c.poison.filter (fun g => !meets (8 * g) 8 a n) }
  else
    let old := numLE ((List.range n).map (fun i => hwByte c (a + i)))
    hwPut a (bytesLE (if xor then old ^^^ v else v) n) c

/-- Inject into a system register that holds a value; its RES and computed bits stay 0 (R5, R25, R27, R37). -/
def injectSys (h n : Nat) (f : Word → Word) (s : State) : State :=
  match n with
  | 0 => setCtxAt h (fun x => { x with pc := f x.pc }) s
  | 1 => setCtxAt h (fun x => { x with wp := f x.wp }) s
  | 2 => setCtxAt h (fun x => { x with flg := flgWritten (f x.flg).toNat }) s
  | 3 => updAct (fun a => { a with item := (f (BitVec.ofNat 64 a.item)).toNat }) s
  | 5 => updPkg (fun k => { k with time := f k.time }) s
  | 8 => updCore (fun c => { c with actCount := f c.actCount }) s
  | 9 => setCtxAt h (fun x => { x with modv := (f (x.modv.setWidth 64)).setWidth 16 }) s
  | 10 => updAct (fun a => { a with strm := (f (BitVec.ofNat 64 a.strm)).toNat % 2 ^ 16 }) s
  | 11 | 12 | 13 | 14 => updCore (fun c => { c with chans := mapAt (fun ch => { ch with chwp := f ch.chwp }) (n - 11) c.chans }) s
  | 15 => updCore (fun c => { c with tvec := f c.tvec }) s
  | 16 => updCore (fun c => { c with twp := f c.twp }) s
  | 17 => setCtxAt h (fun x => { x with repst := f x.repst &&& 0xFFFFFFFF7FFFFFFE }) s
  | 18 => updCore (fun c => { c with sleep := f c.sleep }) s
  | 23 => updCore (fun c => { c with qstat := f c.qstat &&& 3 }) s
  | 24 => updCore (fun c => { c with fpst := f c.fpst &&& 31 }) s
  | 25 => updCore (fun c => updInst (actInst s) (fun x => { x with gen := (f (BitVec.ofNat 64 x.gen)).toNat % 16 }) c) s
  | 27 => updAct (fun a => { a with actlim := (f (BitVec.ofNat 64 a.actlim)).toNat }) s
  | _ => s

/-- Inject into the tuple of a held message, or the datum of another held output. -/
def injectHeld (f : Word → Word) (o : Output) : Output :=
  match o with
  | .msg m => .msg { m with t0 := f m.t0 }
  | .reply m => .reply { m with t0 := f m.t0 }
  | .arm va th m => .arm va (f (BitVec.ofNat 64 th)).toNat m
  | .add va inc => .add va (f (BitVec.ofNat 64 inc)).toNat
  | .nt va bs => .nt va (bytesLE (f (BitVec.ofNat 64 (numLE bs))).toNat bs.length)
  | .stash va bs => .stash va (bytesLE (f (BitVec.ofNat 64 (numLE bs))).toNat bs.length)

/-- Does a debug write to a local store byte raise LSPROT: in the hardware region, but for SNAPSEL and the reserved bytes, and above the local
store (R22, R23)? -/
def lsDenied (a : Nat) : Bool := 0x1F000 ≤ a && !(0x1FE40 ≤ a && a < 0x1FE80)

/-- The write of a debug port that raises LSPROT: the trap is the control context's (notes/assumptions/77.md). -/
def portProt (a : Nat) (s : State) : State := if (ctxAt s 0).live then asCtx 0 s (takeTrap cLSPROT a) else s

/-- A byte of a cluster cache takes a value, where it stands there dirty; a clean line is not held apart from its home. -/
def injectCache (cl pa : Nat) (f : Byte → Byte) (k : Package) : Package :=
  { k with
    cc := k.cc.map (fun d => if d.pa == pa && clusterOf d.core == cl then { d with byte := f d.byte, bad := false } else d)
    ccBad := k.ccBad.filter (· != (cl, pa / 8)) }

/-- The target after a data injection. -/
def inject (t : DebugTarget) (xor : Bool) (v : Nat) (s : State) : State :=
  let f := fun (w : Word) => if xor then w ^^^ BitVec.ofNat 64 v else BitVec.ofNat 64 v
  let g := fun (c : Cmd) => if xor then c ^^^ BitVec.ofNat 512 v else BitVec.ofNat 512 v
  match t with
  | .wreg h n => updCore (injectLs ((ctxAt s h).wp.toNat + 8 * n) 8 xor v) s
  | .vreg h n => updCore (injectLs ((ctxAt s h).wp.toNat + 512 + 64 * n) 64 xor v) s
  | .sreg h n => injectSys h n f s
  | .lsByte a => if lsDenied a then portProt a s else updCore (injectLs a 1 xor v) s
  | .memByte pa => updPkg (fun k => { k with
      mem := memWrite k.mem pa (if xor then memRead k.mem pa ^^^ BitVec.ofNat 8 v else BitVec.ofNat 8 v)
      poison := k.poison.filter (· != pa / 8), poisonSec := k.poisonSec.filter (· != pa / 64) }) s
  | .mxuEntry i => updCore (fun c => { c with mxu := { c.mxu with q := mapAt (fun e => { e with cmd := g e.cmd, bad := false }) i c.mxu.q } }) s
  | .chanEntry ch i => updCore (fun c => { c with
      chans := mapAt (fun x => { x with q := mapAt (fun e => { e with cmd := g e.cmd, bad := false }) i x.q }) ch c.chans }) s
  | .held i => updAct (fun a => { a with held := mapAt (fun e => { e with out := injectHeld f e.out, bad := false }) i a.held }) s
  | .counter asid va =>
    if (ctrPage s asid va).isSome then putCtr asid va (f (BitVec.ofNat 64 (ctrVal s asid va))).toNat false s else s
  | .snap h j => setCtxAt h (fun x => { x with
      snap := x.snap.map (fun r => memWrite r j (if xor then memRead r j ^^^ BitVec.ofNat 8 v else BitVec.ofNat 8 v)), snapBad := false }) s
  | .icache asid va => updCore (fun c => { c with icache := c.icache.map (fun x =>
      if x.1 == asid && x.2.1 == va then (x.1, x.2.1, if xor then x.2.2 ^^^ BitVec.ofNat 16 v else BitVec.ofNat 16 v) else x) }) s
  | .cacheByte pa => updPkg (injectCache (clusterOf s.core.id) pa (fun b => if xor then b ^^^ BitVec.ofNat 8 v else BitVec.ofNat 8 v)) s

/-- The unit of a target (R409). -/
def targetUnit (k : Nat) (t : DebugTarget) (s : State) : Nat :=
  match t with
  | .memByte _ => sliceUnit (dieOf k) (k / 16 % 256)
  | .counter asid va => match ctrPage s asid va with
    | some p => p.home / 256 * 2 ^ 16 + 2 ^ 12 + p.home % 256
    | none => coreUnit k
  | .cacheByte _ => dieOf k * 2 ^ 16 + 2 ^ 12 + k / 16 % 256
  | _ => coreUnit k

/-- The physical address of the granule of a target in home memory or in a cluster cache (R409). -/
def targetAddr (t : DebugTarget) : Nat := match t with | .memByte pa | .cacheByte pa => pa / 8 * 8 | _ => 0

/-- The bank of an injection's target takes its record. -/
def injected (k : Nat) (t : DebugTarget) (s : State) : State :=
  bankErr { unit := targetUnit k t s, core := k, cause := 13, addr := targetAddr t } s

/-- DATA_INJECTION (R417): on a halted core, or once when context h completes the instruction at address a; the check bits are rewritten. -/
def execDataInjection (k : Nat) (t : DebugTarget) (xor : Bool) (v : Injected) (s : State) : Host.Outcome State Fault Refusal :=
  .next (withCore k s (fun s => match v.once with
    | none => if s.core.halted then injected k t (inject t xor v.value s) else s
    | some (h, a) => updCore (fun c => { c with injections := c.injections ++ [⟨h, a, t, xor, v.value⟩] }) s))

/-- The injections of the focal core that wait for its issuing context to complete the instruction at address a are made. -/
def injectDue (a : Nat) (s : State) : State :=
  let due := fun (x : Injection) => x.ctx == s.core.cur && x.addr == a
  (s.core.injections.filter due).foldl (fun t x => injected t.core.id x.target (inject x.target x.xor x.value t))
    (updCore (fun c => { c with injections := c.injections.filter (fun x => !due x) }) s)

/-- The granule of a target becomes poisoned. -/
def poisonTarget (t : DebugTarget) (s : State) : State :=
  let ls := fun (a : Nat) => updCore (fun c => { c with poison := mark (a / 8) c.poison }) s
  let cl := clusterOf s.core.id
  match t with
  | .wreg h n => ls ((ctxAt s h).wp.toNat + 8 * n)
  | .vreg h n => ls ((ctxAt s h).wp.toNat + 512 + 64 * n)
  | .lsByte a => ls a
  | .memByte pa => updPkg (fun k => { k with poison := mark (pa / 8) k.poison }) s
  | .held i => updAct (fun a => { a with held := mapAt (fun e => { e with bad := true }) i a.held }) s
  | .snap h _ => setCtxAt h (fun x => { x with snapBad := x.snap.isSome }) s
  | .mxuEntry i => updCore (fun c => { c with mxu := { c.mxu with q := mapAt (fun e => { e with bad := true }) i c.mxu.q } }) s
  | .chanEntry ch i => updCore (fun c => { c with chans := mapAt (fun x => { x with q := mapAt (fun e => { e with bad := true }) i x.q }) ch c.chans }) s
  | .counter asid va => if (ctrPage s asid va).isSome then putCtr asid va (ctrVal s asid va) true s else s
  | .cacheByte pa =>
    if s.pkg.cc.any (fun d => d.pa / 8 == pa / 8 && clusterOf d.core == cl) then
      updPkg (fun k => { k with cc := k.cc.map (fun d => if d.pa / 8 == pa / 8 && clusterOf d.core == cl then { d with bad := true } else d) }) s
    else updPkg (fun k => { k with ccBad := if k.ccBad.contains (cl, pa / 8) then k.ccBad else k.ccBad ++ [(cl, pa / 8)] }) s
  | .sreg _ _ | .icache _ _ => s

/-- How many bits a mask flips. -/
def flips (mask : Nat) : Nat := ((List.range 512).filter (fun i => mask.testBit i)).length

/-- What the code of an array finds after some flips in one granule: a single one is corrected and two are uncorrectable under SEC-DED, one
more of each under DEC-TED (R405, R406); beyond that it finds what it finds. -/
def codeFinds (dec : Bool) (n : Nat) (found : EccResult) : EccResult :=
  if n = 0 then .clean else if n ≤ 1 + b2n dec then .corrected else if n = 2 + b2n dec then .uncorrectable else found

/-- CHECK_BIT_INJECTION (R417, R405): stored bits of a target flip without their check bits. What its code then finds is recorded at once
(notes/assumptions/94.md); flips that it does not find change the value. System registers have no code, and the instruction cache a
parity bit: an odd number of flips is a miss, and the word is fetched again. -/
def execCheckBitInjection (k : Nat) (t : DebugTarget) (f : Flipped) (s : State) : Host.Outcome State Fault Refusal :=
  .next (withCore k s (fun s =>
    let mask := f.mask
    let u := injected k t s
    let unit := targetUnit k t s
    let n := flips mask
    match t with
    | .sreg _ _ => inject t true mask u
    | .icache asid va =>
      if n % 2 = 0 then inject t true mask u
      else bankErr { unit := unit, core := k, cause := 1 }
        (updCore (fun c => { c with icache := c.icache.filter (fun x => !(x.1 == asid && x.2.1 == va)) }) u)
    | .memByte pa =>
      let r := codeFinds (s.pkg.decTed.contains (unitDie unit)) n f.found
      homeFinds unit k pa r (if r = .clean then inject t true mask u else u)
    | _ =>
      if (match t with | .lsByte a => lsDenied a | _ => false) then inject t true mask u
      else match codeFinds false n f.found with
        | .clean => inject t true mask u
        | .corrected => bankErr { unit := unit, core := k, cause := 1, addr := targetAddr t } u
        | .uncorrectable => bankErr { unit := unit, core := k, cause := 2, ue := true, addr := targetAddr t } (poisonTarget t u)))

end Sys2Proof.Machine
end

