-- ==== Sys2Proof/Machine/System.lean ====
section
/-! DEFINITION. The control words of SYS (R101 to R109), fences (R217, R218) and SPLIT (R212). -/

namespace Sys2Proof.Machine

/-- `sys.nop` (R101). -/
def execSysNop (s : State) : Host.Outcome State Fault Refusal := run s (.ok (retire {} s))

/-- Is a helper of the activation live? -/
def helperLive (s : State) : Bool := (List.range 11).any (fun h => h != 0 && (ctxAt s h).live)

/-- The context that issues stops being live, its core hears of it (R102, R108). -/
def endHelper (s : State) : State := updCore endIdle (setCtx (fun _ => {}) s)

/-- The event records of the exports (R305). -/
def noteExports (passed : Bool) (vals : List Word) (s : State) : State :=
  match s.core.act with
  | some a =>
    if a.stage.isNone then s
    else
      let v := fun (n : Nat) => (vals.getD n 0).toNat
      note 0x40 16 (1 + b2n passed * 2) a.item (v 2 + v 3 * 2 ^ 64)
        (note 0x40 16 (b2n passed * 2) a.item (v 0 + v 1 * 2 ^ 64) s)
  | none => s

/-- END of the control context: it waits for the helpers, then the final commit point, then the activation ends with these
exports (none: poisoned). -/
def finalEnd (passed : Bool) (vals : Option (List Word)) (s : State) : State :=
  if helperLive s then block (.joinh 0) (updAct (fun a => { a with st := .joining }) s)
  else
    let t := if stageOf s = 0 then noteExports passed (vals.getD []) s else s
    withCommit 0 (after {}) t (endAct vals)

/-- `sys.end` (R102). -/
def execSysEnd (s : State) : Host.Outcome State Fault Refusal :=
  runFlushed s (fun s =>
    if s.core.cur = 0 then .ok (finalEnd false (some (latched s)) s)
    else .ok (withCommit 0 (after {}) s endHelper))

/-- What END.P passes on: the item's own imports at distance 1, the defaults before item 0 (R103, R239). -/
def passedExports (s : State) : Res (Option (List Word)) :=
  match s.core.act with
  | none => .ok (some [])
  | some a =>
    match a.stage with
    | none => .ok (some [])
    | some g =>
      if a.item = 0 then .ok (some g.defaults)
      else match fwdEntry s.core (a.item - 1) with
        | .valid j st vs => if j = a.item - 1 ∧ st = a.strm then .ok (some vs) else stall (.forward 1 0)
        | .poison j st => if j = a.item - 1 ∧ st = a.strm then .ok none else stall (.forward 1 0)
        | .empty => stall (.forward 1 0)

/-- `sys.end.p` (R103). -/
def execSysEndP (s : State) : Host.Outcome State Fault Refusal :=
  runFlushed s (fun s =>
    if s.core.cur = 0 then do
      let vs ← passedExports s
      .ok (finalEnd true vs s)
    else .ok (withCommit 0 (after {}) s endHelper))

/-- `sys.abort` (R104); in PAIR and TRIAD modes it waits for a verdict on a vote of one record (R320). -/
def execSysAbort (s : State) : Host.Outcome State Fault Refusal :=
  runFlushed s (fun s =>
    if redundant s && stageOf s == 0 then
      .ok (sendVote 3 (after {}) (note 0x41 0 0 (start s) 0 (setCtx (fun x => { x with records := [] }) s)))
    else .ok (abortAct 2 s))

/-- `sys.brk` (R105): with break capture the core halts before the trap is taken, once a running clear has completed (R139). -/
def execSysBrk (c : BitVec 4) (s : State) : Host.Outcome State Fault Refusal :=
  if s.core.breakCapture then .next (if clearing s.core then s else haltCore s)
  else runFlushed s (fun _ => trap cBRK c.toNat)

/-- `sys.svc` (R106): the context waits for Klogar, which serves the codes 0 to 8 (R389); the others raise SVC. -/
def execSysSvc (c : BitVec 4) (s : State) : Host.Outcome State Fault Refusal :=
  runFlushed s (fun s => do
    need (c.toNat < 9) cSVC c.toNat
    names s [4, 5, 6, 7, 8, 9, 10, 11] []
    reads s [4, 5, 6, 7, 8, 9, 10, 11] []
    match nxtStall (retire {}) s with
    | some w => .ok (block w s)
    | none => stall (.svc c.toNat))

/-- `sys.rett` (R107). -/
def execSysRett (s : State) : Host.Outcome State Fault Refusal := runFlushed s (rett .sysRett)

/-- `sys.idle` (R108): part 1 follows the event that ends the wait. -/
def execSysIdle (s : State) : Host.Outcome State Fault Refusal :=
  runFlushed s (fun s => if stageOf s = 0 then .ok (setStage 1 (block .idle s)) else .ok (retire {} s))

/-- Every member of a gang becomes ALONE (R231). -/
def dissolve (s : State) : State :=
  match s.core.gang with
  | .coupled mask tag =>
    (List.range 16).foldl (fun t i =>
      let k := 16 * clusterOf s.core.id + i
      if (coreOf t k).gang == .coupled mask tag then setCore k { coreOf t k with gang := .alone } t else t) s
  | _ => s

/-- `sys.split` (R212). -/
def execSysSplit (s : State) : Host.Outcome State Fault Refusal := run s (.ok (retire {} (dissolve s)))

/-! ## Fences -/

/-- `sys.fence` (R217): the release and then the acquire. -/
def execSysFence (y : BitVec 4) (s : State) : Host.Outcome State Fault Refusal :=
  runFlushed s (fun s => do
    need8 (y.toNat ≤ 4) (.sysFence y)
    .ok (released false 0 (after {}) y.toNat (fun t => match acquire y.toNat (retire {} t) with
      | .ok u => u
      | .error _ => block .leader (setStage 3 t)) s))

/-- `sys.fence.rel` (R217). -/
def execSysFenceRel (y : BitVec 4) (s : State) : Host.Outcome State Fault Refusal :=
  runFlushed s (fun s => do
    need8 (y.toNat ≤ 4) (.sysFenceRel y)
    .ok (released false 0 (after {}) y.toNat (retire {}) s))

/-- `sys.fence.acq` (R217). -/
def execSysFenceAcq (y : BitVec 4) (s : State) : Host.Outcome State Fault Refusal :=
  runFlushed s (fun s => do
    need8 (y.toNat ≤ 4) (.sysFenceAcq y)
    acquire y.toNat (retire {} s))

/-- Non-temporal stores of the issuing context whose homes a DRAIN at a scope covers (R217): at core, clu and die those of its
die, at pkg and sys every one. -/
def ntOpen (scope : Nat) (s : State) : Bool :=
  s.pkg.nts.any (fun n => n.core == s.core.id && n.ctx == s.core.cur &&
    (3 ≤ scope || homeDie s n.asid n.va == dieOf s.core.id))

/-- `sys.fence.drain` (R217): a commit point, then the non-temporal stores are awaited. -/
def execSysFenceDrain (y : BitVec 4) (s : State) : Host.Outcome State Fault Refusal :=
  runFlushed s (fun s => do
    need8 (y.toNat ≤ 4) (.sysFenceDrain y)
    let fin := fun t => if ntOpen y.toNat t then holdMid (block (.drain y.toNat) (setStage 2 t)) else retire {} t
    .ok (if stageOf s ≤ 1 then withCommit 0 (after {}) s fin else fin s))

/-- `sys.fence.ibar` (R218). -/
def execSysFenceIbar (s : State) : Host.Outcome State Fault Refusal :=
  runFlushed s (fun s => .ok (retire {} (setCtx (fun x => { x with fetched := [] }) s)))

/-- `sys.vtype` (R109). -/
def execSysVtype (t y : BitVec 4) (s : State) : Host.Outcome State Fault Refusal :=
  run s (do
    need8 (t != 15 || y == 0 || (2 ≤ y.toNat && y.toNat ≤ 8)) (.sysVtype t y)
    .ok (retire {} (setCtx (fun x => { x with
      flg := if t = 15 then (x.flg &&& 0xFFFFFFFFFFFF00FF) ||| (t.setWidth 64 <<< 8) ||| (y.setWidth 64 <<< 12)
        else (x.flg &&& 0xFFFFFFFFFFFFF0FF) ||| (t.setWidth 64 <<< 8) }) s)))

end Sys2Proof.Machine
end

