-- ==== Sys2Proof/Machine/Vec.lean ====
section
/-! DEFINITION. The vector instructions: VEC pages 0 to 3 (R141 to R160) and LONG pages 6 to 9 (R161). -/

namespace Sys2Proof.Machine

/-! ## Types, registers, results -/

/-- The lane type in force (R141). -/
def vecEt (p : Pre) (s : State) : Nat := match p.qual with | some q => q.et.toNat | none => flgET s

/-- The rounding of the chain (R52, R53). -/
def rnd (p : Pre) (s : State) : Rnd := { mode := fpMode p s, sat := flgSAT s }

/-- A lane type that the function does not accept (R144). -/
def checkType (i : Instr) (s : State) : Res Unit := need8 ((formOf i).types.testBit (vecEt (preOf i) s)) i

/-- The window check, filled sectors, and bytes that MXU commands name (R19, R133, R145). -/
def vecNames (s : State) (ws vs : List Nat) : Res Unit := do
  names s ws vs
  let rs : List (Nat × Nat) := ws.map (fun n => (wAddr s n, 8)) ++ vs.map (fun n => (vAddr s n, 64))
  match rs.find? (fun r => mxuNames s.core r.1 r.2) with
  | some r => stall (.mxuBytes r.1 r.2)
  | none => .ok ()

/-- The registers of a vector instruction, its forwarded operand, and then the reads: `bSrc` and `cSrc` are the w registers that
fields b and c name as sources, `rw` and `rv` the other registers that are read. -/
def vecOperands (i : Instr) (s : State) (ws vs : List Nat) (bSrc cSrc : Option Nat) (rw rv : List Nat) : Res Forwarded := do
  vecNames s ws vs
  let f ← forwarded i s bSrc cSrc
  reads s (rw ++ unreplaced f bSrc.toList cSrc.toList) rv
  .ok f

/-- V[n + j] for the number n as the chain names it: modulo 16 in a bellows body (R146). -/
def vPlus (s : State) (n j : Nat) : Nat := if repActive (ctx s).repst.toNat then (n + j) % 16 else n + j

/-- The status of some results. -/
def statusOf (rs : List FR) : Nat × Bool := rs.foldl (fun a r => (a.1 ||| r.st, a.2 || r.sat)) (0, false)

/-- Status and FPINV of an instruction's lanes (R145). -/
def laneStatus (rs : List FR) (s : State) : Res State := do
  let st := statusOf rs
  checkInv s st.1
  .ok (addStatus st.1 st.2 s)

/-- The lanes of V[n] in the type in force. -/
def regLanes (et : Nat) (s : State) (n : Nat) : List Nat := lanes (etBytes et) (regV s n)

/-- Deliver lane results in V[n]. -/
def putLanes (p : Pre) (et n : Nat) (rs : List FR) (s : State) : Res State := do
  let t ← laneStatus rs s
  .ok (retire p (setV n (unlanes (etBytes et) (rs.map (·.val))) t))

/-- Bytes of V[n] from an offset. -/
def setVAt (n off : Nat) (bs : List Byte) (s : State) : State := updCore (lsPut s.core.cur (vAddr s n + off) bs) s

/-- Values without status. -/
def plain (xs : List Nat) : List FR := xs.map (fun x => { val := x })

/-- The numbers of x and y of R143. -/
def vecTwo (s : State) (p : Pre) (a b : BitVec 4) : Nat × Nat :=
  if p.reg.isSome then (vB s p b, vC s p) else (vA s p a, vB s p b)

/-- A two-source lane function (R143, R147). -/
def vecBinary (i : Instr) (p : Pre) (a b : BitVec 4) (f : Nat → Rnd → Nat → Nat → FR) (s : State) :
    Host.Outcome State Fault Refusal :=
  run s (do
    checkType i s
    let d := vA s p a
    let n := vecTwo s p a b
    let _ ← vecOperands i s [] [d, n.1, n.2] none none [] [n.1, n.2]
    let et := vecEt p s
    putLanes p et d (List.zipWith (f et (rnd p s)) (regLanes et s n.1) (regLanes et s n.2)) s)

/-- A two-source function over all 64 bytes. -/
def vecBytes (i : Instr) (p : Pre) (a b : BitVec 4) (f : Byte → Byte → Byte) (s : State) : Host.Outcome State Fault Refusal :=
  run s (do
    let d := vA s p a
    let n := vecTwo s p a b
    let _ ← vecOperands i s [] [d, n.1, n.2] none none [] [n.1, n.2]
    .ok (retire p (setV d (List.zipWith f (regV s n.1) (regV s n.2)) s)))

/-- A one-source lane function (R143). -/
def vecUnary (i : Instr) (p : Pre) (a b : BitVec 4) (f : Nat → Rnd → Nat → FR) (s : State) : Host.Outcome State Fault Refusal :=
  run s (do
    checkType i s
    let d := vA s p a
    let n := vB s p b
    let _ ← vecOperands i s [] [d, n] none none [] [n]
    let et := vecEt p s
    putLanes p et d ((regLanes et s n).map (f et (rnd p s))) s)

/-! ## Page 0 (R147) -/

/-- `vec.add`. -/
def execVecAdd (p : Pre) (a b : BitVec 4) (s : State) : Host.Outcome State Fault Refusal :=
  vecBinary (.vecAdd p a b) p a b laneAdd s

/-- `vec.sub`. -/
def execVecSub (p : Pre) (a b : BitVec 4) (s : State) : Host.Outcome State Fault Refusal :=
  vecBinary (.vecSub p a b) p a b laneSub s

/-- `vec.mul`. -/
def execVecMul (p : Pre) (a b : BitVec 4) (s : State) : Host.Outcome State Fault Refusal :=
  vecBinary (.vecMul p a b) p a b laneMul s

/-- `vec.fma`: V[a] + V[b] × V[c]; PFX.R is required. -/
def execVecFma (p : Pre) (a b : BitVec 4) (s : State) : Host.Outcome State Fault Refusal :=
  run s (do
    let i := Instr.vecFma p a b
    need8 p.reg.isSome i
    checkType i s
    let d := vA s p a
    let _ ← vecOperands i s [] [d, vB s p b, vC s p] none none [] [d, vB s p b, vC s p]
    let et := vecEt p s
    putLanes p et d (List.zipWith (fun z xy => laneFma et (rnd p s) z xy.1 xy.2) (regLanes et s d)
      (List.zip (regLanes et s (vB s p b)) (regLanes et s (vC s p)))) s)

/-- `vec.min`. -/
def execVecMin (p : Pre) (a b : BitVec 4) (s : State) : Host.Outcome State Fault Refusal :=
  vecBinary (.vecMin p a b) p a b (fun et _ x y => { val := laneMin et x y }) s

/-- `vec.max`. -/
def execVecMax (p : Pre) (a b : BitVec 4) (s : State) : Host.Outcome State Fault Refusal :=
  vecBinary (.vecMax p a b) p a b (fun et _ x y => { val := laneMax et x y }) s

/-- `vec.and`. -/
def execVecAnd (p : Pre) (a b : BitVec 4) (s : State) : Host.Outcome State Fault Refusal :=
  vecBytes (.vecAnd p a b) p a b (· &&& ·) s

/-- `vec.or`. -/
def execVecOr (p : Pre) (a b : BitVec 4) (s : State) : Host.Outcome State Fault Refusal :=
  vecBytes (.vecOr p a b) p a b (· ||| ·) s

/-- `vec.xor`. -/
def execVecXor (p : Pre) (a b : BitVec 4) (s : State) : Host.Outcome State Fault Refusal :=
  vecBytes (.vecXor p a b) p a b (· ^^^ ·) s

/-- `vec.shl`. -/
def execVecShl (p : Pre) (a b : BitVec 4) (s : State) : Host.Outcome State Fault Refusal :=
  vecBinary (.vecShl p a b) p a b (fun et _ x y => { val := laneShl et x y }) s

/-- `vec.shr`. -/
def execVecShr (p : Pre) (a b : BitVec 4) (s : State) : Host.Outcome State Fault Refusal :=
  vecBinary (.vecShr p a b) p a b (fun et _ x y => { val := laneShr et x y }) s

/-- `vec.sar`. -/
def execVecSar (p : Pre) (a b : BitVec 4) (s : State) : Host.Outcome State Fault Refusal :=
  vecBinary (.vecSar p a b) p a b (fun et _ x y => { val := laneSar et x y }) s

/-- `vec.abs`. -/
def execVecAbs (p : Pre) (a b : BitVec 4) (s : State) : Host.Outcome State Fault Refusal :=
  vecUnary (.vecAbs p a b) p a b (fun et _ x => { val := laneAbs et x }) s

/-- `vec.neg`. -/
def execVecNeg (p : Pre) (a b : BitVec 4) (s : State) : Host.Outcome State Fault Refusal :=
  vecUnary (.vecNeg p a b) p a b (fun et _ x => { val := laneNeg et x }) s

/-- `vec.mov`. -/
def execVecMov (p : Pre) (a b : BitVec 4) (s : State) : Host.Outcome State Fault Refusal :=
  run s (do
    let _ ← vecOperands (.vecMov p a b) s [] [vA s p a, vB s p b] none none [] [vB s p b]
    .ok (retire p (setV (vA s p a) (regV s (vB s p b)) s)))

/-- `vec.bc`: the low bits of W[b] in every lane. -/
def execVecBc (p : Pre) (a b : BitVec 4) (s : State) : Host.Outcome State Fault Refusal :=
  run s (do
    let i := Instr.vecBc p a b
    checkType i s
    let f ← vecOperands i s [wB p b] [vA s p a] (some (wB p b)) none [] []
    let n := etBytes (vecEt p s)
    .ok (retire p (setV (vA s p a) (unlanes n (List.replicate (64 / n) (srcB s f (wB p b)))) s)))

/-! ## Page 1 (R148 to R150) -/

/-- A comparison of V[b] with V[c] into a mask in W[a]; PFX.R is required. -/
def vecCompare (i : Instr) (p : Pre) (a b : BitVec 4) (f : Nat → Nat → Nat → Bool) (s : State) : Host.Outcome State Fault Refusal :=
  run s (do
    need8 p.reg.isSome i
    checkType i s
    let _ ← vecOperands i s [wA p a] [vB s p b, vC s p] none none [] [vB s p b, vC s p]
    let et := vecEt p s
    .ok (retire p (setW (wA p a) (maskOf (List.zipWith (f et) (regLanes et s (vB s p b)) (regLanes et s (vC s p)))) s)))

/-- `vec.ceq`. -/
def execVecCeq (p : Pre) (a b : BitVec 4) (s : State) : Host.Outcome State Fault Refusal :=
  vecCompare (.vecCeq p a b) p a b laneEq s

/-- `vec.clt`. -/
def execVecClt (p : Pre) (a b : BitVec 4) (s : State) : Host.Outcome State Fault Refusal :=
  vecCompare (.vecClt p a b) p a b laneLt s

/-- `vec.cle`. -/
def execVecCle (p : Pre) (a b : BitVec 4) (s : State) : Host.Outcome State Fault Refusal :=
  vecCompare (.vecCle p a b) p a b laneLe s

/-- A function of V[b] and W[c] into V[a] lane by lane; PFX.R is required. `f` takes old V[a], V[b] and W[c]. -/
def vecByW (keep : Bool) (i : Instr) (p : Pre) (a b : BitVec 4) (f : Nat → List Nat → List Nat → Nat → List Nat) (s : State) :
    Host.Outcome State Fault Refusal :=
  run s (do
    need8 p.reg.isSome i
    checkType i s
    let g ← vecOperands i s [cNum p] [vA s p a, vB s p b] none (some (cNum p)) [] ((if keep then [vA s p a] else []) ++ [vB s p b])
    let et := vecEt p s
    putLanes p et (vA s p a) (plain (f et (regLanes et s (vA s p a)) (regLanes et s (vB s p b)) (srcC s g (cNum p)))) s)

/-- `vec.sel`. -/
def execVecSel (p : Pre) (a b : BitVec 4) (s : State) : Host.Outcome State Fault Refusal :=
  vecByW true (.vecSel p a b) p a b (fun _ x y m => (List.range x.length).map (fun i => if bit m i then y.getD i 0 else x.getD i 0)) s

/-- `vec.rsum` (R68, R149). -/
def execVecRsum (p : Pre) (a b : BitVec 4) (s : State) : Host.Outcome State Fault Refusal :=
  run s (do
    let i := Instr.vecRsum p a b
    checkType i s
    let _ ← vecOperands i s [wA p a] [vB s p b] none none [] [vB s p b]
    let et := vecEt p s
    let r := rootFR (tree (nodeAdd et (rnd p s)) (plain (regLanes et s (vB s p b))))
    let t ← laneStatus [r] s
    .ok (retire p (setW (wA p a) (laneW et r.val) t)))

/-- The largest or smallest lane. -/
def vecReduce (i : Instr) (p : Pre) (a b : BitVec 4) (f : Nat → Nat → Nat → Nat) (s : State) : Host.Outcome State Fault Refusal :=
  run s (do
    checkType i s
    let _ ← vecOperands i s [wA p a] [vB s p b] none none [] [vB s p b]
    let et := vecEt p s
    .ok (retire p (setW (wA p a) (laneW et ((tree (f et) (regLanes et s (vB s p b))).headD 0)) s)))

/-- `vec.rmax`. -/
def execVecRmax (p : Pre) (a b : BitVec 4) (s : State) : Host.Outcome State Fault Refusal :=
  vecReduce (.vecRmax p a b) p a b nodeMax s

/-- `vec.rmin`. -/
def execVecRmin (p : Pre) (a b : BitVec 4) (s : State) : Host.Outcome State Fault Refusal :=
  vecReduce (.vecRmin p a b) p a b nodeMin s

/-- `vec.perm`: PFX.R is required. -/
def execVecPerm (p : Pre) (a b : BitVec 4) (s : State) : Host.Outcome State Fault Refusal :=
  run s (do
    let i := Instr.vecPerm p a b
    need8 p.reg.isSome i
    checkType i s
    let _ ← vecOperands i s [] [vA s p a, vB s p b, vC s p] none none [] [vB s p b, vC s p]
    let et := vecEt p s
    let x := regLanes et s (vB s p b)
    putLanes p et (vA s p a) (plain ((regLanes et s (vC s p)).map (fun n => x.getD (n % x.length) 0))) s)

/-- `vec.sld`. -/
def execVecSld (p : Pre) (a b : BitVec 4) (s : State) : Host.Outcome State Fault Refusal :=
  vecByW false (.vecSld p a b) p a b (fun _ _ y n => (List.range y.length).map (fun i => y.getD (i + n) 0)) s

/-- `vec.ext`: PFX.R is required. -/
def execVecExt (p : Pre) (a b : BitVec 4) (s : State) : Host.Outcome State Fault Refusal :=
  run s (do
    let i := Instr.vecExt p a b
    need8 p.reg.isSome i
    checkType i s
    let g ← vecOperands i s [wA p a, cNum p] [vB s p b] none (some (cNum p)) [] [vB s p b]
    let et := vecEt p s
    let x := regLanes et s (vB s p b)
    .ok (retire p (setW (wA p a) (laneW et (x.getD (srcC s g (cNum p) % x.length) 0)) s)))

/-- `vec.ins`: PFX.R is required; the other lanes are neither read nor written. -/
def execVecIns (p : Pre) (a b : BitVec 4) (s : State) : Host.Outcome State Fault Refusal :=
  run s (do
    let i := Instr.vecIns p a b
    need8 p.reg.isSome i
    checkType i s
    let g ← vecOperands i s [wB p b, cNum p] [vA s p a] (some (wB p b)) (some (cNum p)) [] []
    let n := etBytes (vecEt p s)
    .ok (retire p (setVAt (vA s p a) (srcC s g (cNum p) % (64 / n) * n) (bytesLE (srcB s g (wB p b)) n) s)))

/-- `vec.dot` (R150): products, tree and accumulation; PFX.R is required. -/
def execVecDot (p : Pre) (a b : BitVec 4) (s : State) : Host.Outcome State Fault Refusal :=
  run s (do
    let i := Instr.vecDot p a b
    need8 p.reg.isSome i
    checkType i s
    let n := wA p a
    let et := vecEt p s
    let _ ← vecOperands i s [n, n + 1] [vB s p b, vC s p] none none (if isInt et then [n] else [n, n + 1]) [vB s p b, vC s p]
    let m := rnd p s
    let t := rootFR (tree (nodeAdd et m) (List.zipWith (laneMul et m) (regLanes et s (vB s p b)) (regLanes et s (vC s p))))
    if isInt et then .ok (retire p (setW n (regW s n + laneW et t.val) s))
    else
      let f := if et = 13 then f64 else f32
      let sc := regW s (n + 1)
      let r := fma3 f m (fdec f (regW s n % 2 ^ f.width)) (fdec f32 (bits sc 31 0)) (fdec f32 (bits sc 63 32))
        (fdec (fmtOf et) t.val)
      let u ← laneStatus [t, r] s
      .ok (retire p (setW n r.val u)))

/-- `vec.iota`. -/
def execVecIota (p : Pre) (a b : BitVec 4) (s : State) : Host.Outcome State Fault Refusal :=
  run s (do
    let i := Instr.vecIota p a b
    checkType i s
    let f ← vecOperands i s [wB p b] [vA s p a] (some (wB p b)) none [] []
    let et := vecEt p s
    let x := srcB s f (wB p b)
    let m := rnd p s
    putLanes p et (vA s p a) ((List.range (64 / etBytes et)).map (fun (i : Nat) =>
      if isInt et then wrapLane et ((x : Int) + i) else intToF (fmtOf et) m.mode m.sat (sv x 64 + i))) s)

/-! ## Page 2 (R151 to R159) -/

/-- `vec.cvt` (R151): source type and part in c; PFX.R is required. -/
def execVecCvt (p : Pre) (a b : BitVec 4) (s : State) : Host.Outcome State Fault Refusal :=
  run s (do
    let i := Instr.vecCvt p a b
    need8 p.reg.isSome i
    checkType i s
    let et := vecEt p s
    let src := cNum p % 16
    let part := cNum p / 16
    need8 (src < 14 && part * min (etBytes et) (etBytes src) < max (etBytes et) (etBytes src)) i
    let _ ← vecOperands i s [] [vA s p a, vB s p b] none none [] [vB s p b]
    let x := regLanes src s (vB s p b)
    let n := 64 / max (etBytes et) (etBytes src)
    let conv := convLane et src (rnd p s)
    let rs := (if etBytes et ≤ etBytes src then x.take n else (x.drop (part * n)).take n).map conv
    let off := if etBytes et ≤ etBytes src then part * n * etBytes et else 0
    let t ← laneStatus rs s
    .ok (retire p (setVAt (vA s p a) off (unlanes (etBytes et) (rs.map (·.val))) t)))

/-- `vec.qnt` (R153): PFX.R is required. -/
def execVecQnt (p : Pre) (a b : BitVec 4) (s : State) : Host.Outcome State Fault Refusal :=
  run s (do
    let i := Instr.vecQnt p a b
    need8 p.reg.isSome i
    checkType i s
    let d := vA s p a
    let n := vB s p b
    let n' := vPlus s n 1
    let g ← vecOperands i s [cNum p] [d, n, n'] none (some (cNum p)) [] [d, n, n']
    let et := vecEt p s
    let q := quantise et (fpMode p s) ((regLanes 12 s n ++ regLanes 12 s n').map (fdec f32))
    let t ← laneStatus q.1 s
    let old := regV s d
    .ok (retire p (setW (cNum p) (srcC s g (cNum p) / 256 + q.2 * 2 ^ 56)
      (setV d (old.drop 32 ++ unlanes 1 (q.1.map (·.val))) t))))

/-- `vec.dqnt` (R154): PFX.R is required. -/
def execVecDqnt (p : Pre) (a b : BitVec 4) (s : State) : Host.Outcome State Fault Refusal :=
  run s (do
    let i := Instr.vecDqnt p a b
    need8 p.reg.isSome i
    checkType i s
    let d := vA s p a
    let d' := vPlus s d 1
    let g ← vecOperands i s [cNum p] [d, d', vB s p b] none (some (cNum p)) [] [vB s p b]
    let et := vecEt p s
    let sc := srcC s g (cNum p)
    let rs := ((regLanes 0 s (vB s p b)).take 32).map (dqntElem et (rnd p s) (sc % 256))
    let t ← laneStatus rs s
    let vals := rs.map (·.val)
    .ok (retire p (setW (cNum p) (sc / 256) (setV d' (unlanes 4 (vals.drop 16)) (setV d (unlanes 4 (vals.take 16)) t)))))

/-- Write consecutive 64-byte parts to V[n], V[n + 1], … -/
def setVs (n : Nat) (bs : List Byte) (k : Nat) (s : State) : State :=
  (List.range k).foldl (fun t j => setV (vPlus s n j) ((bs.drop (64 * j)).take 64) t) s

/-- The bytes of V[n], V[n + 1], …, k registers. -/
def regVs (n k : Nat) (s : State) : List Byte := (List.range k).flatMap (fun j => regV s (vPlus s n j))

/-- The numbers n, n + 1, …, k of them. -/
def vRun (s : State) (n k : Nat) : List Nat := (List.range k).map (vPlus s n)

/-- `vec.pack` (R155). -/
def execVecPack (p : Pre) (a b : BitVec 4) (s : State) : Host.Outcome State Fault Refusal :=
  run s (do
    let _ ← vecOperands (.vecPack p a b) s [] (vRun s (vA s p a) 4 ++ vRun s (vB s p b) 4) none none [] (vRun s (vB s p b) 4)
    .ok (retire p (setVs (vA s p a) (bpLine (regVs (vB s p b) 4 s)) 4 s)))

/-- `vec.unpk` (R156): FLG.PL planes. -/
def execVecUnpk (p : Pre) (a b : BitVec 4) (s : State) : Host.Outcome State Fault Refusal :=
  run s (do
    let k := flgPL s
    let n := (k + 1) / 2
    let _ ← vecOperands (.vecUnpk p a b) s [] (vRun s (vA s p a) 4 ++ vRun s (vB s p b) n) none none [] (vRun s (vB s p b) n)
    let line := regVs (vB s p b) n s
    .ok (retire p (setVs (vA s p a) ((List.range 256).map (fun e => BitVec.ofNat 8 (narrow 8 (bpValue line k e)))) 4 s)))

/-- `vec.lut` (R157). -/
def execVecLut (p : Pre) (a b : BitVec 4) (s : State) : Host.Outcome State Fault Refusal :=
  run s (do
    let _ ← vecOperands (.vecLut p a b) s [] [vA s p a, vB s p b] none none [] [vB s p b]
    let codes := (regV s (vB s p b)).drop (32 * (cNum p % 2))
    .ok (retire p (setV (vA s p a) ((List.range 64).map (fun i => lutEntry s.core.lut (lutCode codes i))) s)))

/-- Does the MXU hold a command that reads the code table (R60)? -/
def lutQueued (c : Core) : Bool := c.mxu.q.any (fun e => 0x1C ≤ bits e.cmd.toNat 7 0 && bits e.cmd.toNat 7 0 ≤ 0x1E)

/-- `vec.ldtb` (R158): it waits for the lut4 commands pushed before it (R60). -/
def execVecLdtb (p : Pre) (b : BitVec 4) (s : State) : Host.Outcome State Fault Refusal :=
  run s (do
    let _ ← vecOperands (.vecLdtb p b) s [] [vB s p b] none none [] [vB s p b]
    if lutQueued s.core then stall .mxuLut
    else .ok (retire p (updCore (fun c => { c with lut := BitVec.ofNat 128 (numLE ((regV s (vB s p b)).take 16)) }) s)))

/-- `vec.rnd` (R159). -/
def execVecRnd (p : Pre) (a b : BitVec 4) (s : State) : Host.Outcome State Fault Refusal :=
  vecUnary (.vecRnd p a b) p a b (fun et m x => frnd (fmtOf et) m.mode x) s

/-! ## Page 3 (R160) -/

/-- The 16 bits of the immediate. -/
def vecImm (p : Pre) (b : BitVec 4) : Nat := narrow 16 (immS p 4 b.toNat)

/-- A lane function of a register and the immediate into V[a]. -/
def vecImmediate (i : Instr) (p : Pre) (a b : BitVec 4) (f : Nat → Rnd → Nat → Nat → FR) (s : State) :
    Host.Outcome State Fault Refusal :=
  run s (do
    checkType i s
    let d := vA s p a
    let n := if p.reg.isSome then vC s p else d
    let _ ← vecOperands i s [] [d, n] none none [] [n]
    let et := vecEt p s
    let x := regLanes et s n
    putLanes p et d ((List.range x.length).map (fun j => f et (rnd p s) (x.getD j 0) (immLane et (vecImm p b) j))) s)

/-- `vec.addi`. -/
def execVecAddi (p : Pre) (a b : BitVec 4) (s : State) : Host.Outcome State Fault Refusal :=
  vecImmediate (.vecAddi p a b) p a b laneAdd s

/-- `vec.muli`. -/
def execVecMuli (p : Pre) (a b : BitVec 4) (s : State) : Host.Outcome State Fault Refusal :=
  vecImmediate (.vecMuli p a b) p a b laneMul s

/-- `vec.mini`. -/
def execVecMini (p : Pre) (a b : BitVec 4) (s : State) : Host.Outcome State Fault Refusal :=
  vecImmediate (.vecMini p a b) p a b (fun et _ x y => { val := laneMin et x y }) s

/-- `vec.maxi`. -/
def execVecMaxi (p : Pre) (a b : BitVec 4) (s : State) : Host.Outcome State Fault Refusal :=
  vecImmediate (.vecMaxi p a b) p a b (fun et _ x y => { val := laneMax et x y }) s

/-- A comparison of V[c] with the immediate into a mask in W[a]; PFX.R is required. -/
def vecCompareI (i : Instr) (p : Pre) (a b : BitVec 4) (f : Nat → Nat → Nat → Bool) (s : State) : Host.Outcome State Fault Refusal :=
  run s (do
    need8 p.reg.isSome i
    checkType i s
    let _ ← vecOperands i s [wA p a] [vC s p] none none [] [vC s p]
    let et := vecEt p s
    let x := regLanes et s (vC s p)
    .ok (retire p (setW (wA p a) (maskOf ((List.range x.length).map (fun j => f et (x.getD j 0) (immLane et (vecImm p b) j)))) s)))

/-- `vec.ceqi`. -/
def execVecCeqi (p : Pre) (a b : BitVec 4) (s : State) : Host.Outcome State Fault Refusal :=
  vecCompareI (.vecCeqi p a b) p a b laneEq s

/-- `vec.clti`. -/
def execVecClti (p : Pre) (a b : BitVec 4) (s : State) : Host.Outcome State Fault Refusal :=
  vecCompareI (.vecClti p a b) p a b laneLt s

/-- `vec.bci`. -/
def execVecBci (p : Pre) (a b : BitVec 4) (s : State) : Host.Outcome State Fault Refusal :=
  run s (do
    let i := Instr.vecBci p a b
    checkType i s
    let _ ← vecOperands i s [] [vA s p a] none none [] []
    let et := vecEt p s
    putLanes p et (vA s p a) (plain ((List.range (64 / etBytes et)).map (immLane et (vecImm p b)))) s)

/-- `vec.fmai`: V[a] × imm + V[c]; PFX.R is required. -/
def execVecFmai (p : Pre) (a b : BitVec 4) (s : State) : Host.Outcome State Fault Refusal :=
  run s (do
    let i := Instr.vecFmai p a b
    need8 p.reg.isSome i
    checkType i s
    let d := vA s p a
    let _ ← vecOperands i s [] [d, vC s p] none none [] [d, vC s p]
    let et := vecEt p s
    let x := regLanes et s d
    let z := regLanes et s (vC s p)
    putLanes p et d ((List.range x.length).map (fun j =>
      laneFma et (rnd p s) (z.getD j 0) (x.getD j 0) (immLane et (vecImm p b) j))) s)

/-! ## Long vector functions (R161) -/

/-- A function of every lane of V[b] as one long result in V[a]. -/
def longVec (i : Instr) (p : Pre) (a b l : BitVec 4) (f : Fmt → Rnd → FV → FR) (s : State) : Host.Outcome State Fault Refusal :=
  run s (do
    let s := longRoom s
    checkType i s
    let _ ← vecOperands i s [] [vA s p a, vB s p b] none none [] [vB s p b]
    let et := vecEt p s
    let rs := (regLanes et s (vB s p b)).map (fun x => f (fmtOf et) (rnd p s) (fdec (fmtOf et) x))
    let t ← laneStatus rs s
    .ok (retire p (pushLong l.toNat
      { addr := vAddr s (vA s p a), bytes := unlanes (etBytes et) (rs.map (·.val)), flags := none, left := 0 } t)))

/-- `long.vexp2`. -/
def execLongVexp2 (p : Pre) (a b l : BitVec 4) (s : State) : Host.Outcome State Fault Refusal :=
  longVec (.longVexp2 p a b l) p a b l fexp2 s

/-- `long.vrcp`. -/
def execLongVrcp (p : Pre) (a b l : BitVec 4) (s : State) : Host.Outcome State Fault Refusal :=
  longVec (.longVrcp p a b l) p a b l frcp s

/-- `long.vrsq`. -/
def execLongVrsq (p : Pre) (a b l : BitVec 4) (s : State) : Host.Outcome State Fault Refusal :=
  longVec (.longVrsq p a b l) p a b l frsqrt s

/-- `long.vlog2`. -/
def execLongVlog2 (p : Pre) (a b l : BitVec 4) (s : State) : Host.Outcome State Fault Refusal :=
  longVec (.longVlog2 p a b l) p a b l flog2 s

end Sys2Proof.Machine
end

