-- ==== Sys2Proof/Machine/Dispatch.lean ====
section
/-! DEFINITION. What every instruction and event does: one arm for each row of the opcode table. -/

namespace Sys2Proof.Machine

/-- The step that an instruction makes. -/
def exec (i : Instr) (s : State) : Host.Outcome State Fault Refusal :=
  match i with
  | .sysNop => Sys2Proof.Machine.execSysNop s
  | .sysEnd => Sys2Proof.Machine.execSysEnd s
  | .sysEndP => Sys2Proof.Machine.execSysEndP s
  | .sysAbort => Sys2Proof.Machine.execSysAbort s
  | .sysBrk c => Sys2Proof.Machine.execSysBrk c s
  | .sysSvc c => Sys2Proof.Machine.execSysSvc c s
  | .sysRett => Sys2Proof.Machine.execSysRett s
  | .sysIdle => Sys2Proof.Machine.execSysIdle s
  | .sysSplit => Sys2Proof.Machine.execSysSplit s
  | .sysFence y => Sys2Proof.Machine.execSysFence y s
  | .sysFenceRel y => Sys2Proof.Machine.execSysFenceRel y s
  | .sysFenceAcq y => Sys2Proof.Machine.execSysFenceAcq y s
  | .sysFenceDrain y => Sys2Proof.Machine.execSysFenceDrain y s
  | .sysFenceIbar => Sys2Proof.Machine.execSysFenceIbar s
  | .sysVtype t y => Sys2Proof.Machine.execSysVtype t y s
  | .sysRep p l y => Sys2Proof.Machine.execSysRep p l y s
  | .aluAdd p a b => Sys2Proof.Machine.execAluAdd p a b s
  | .aluSub p a b => Sys2Proof.Machine.execAluSub p a b s
  | .aluAnd p a b => Sys2Proof.Machine.execAluAnd p a b s
  | .aluOr p a b => Sys2Proof.Machine.execAluOr p a b s
  | .aluXor p a b => Sys2Proof.Machine.execAluXor p a b s
  | .aluShl p a b => Sys2Proof.Machine.execAluShl p a b s
  | .aluShr p a b => Sys2Proof.Machine.execAluShr p a b s
  | .aluSar p a b => Sys2Proof.Machine.execAluSar p a b s
  | .aluMul p a b => Sys2Proof.Machine.execAluMul p a b s
  | .aluMulh p a b => Sys2Proof.Machine.execAluMulh p a b s
  | .aluMulhn p a b => Sys2Proof.Machine.execAluMulhn p a b s
  | .aluMin p a b => Sys2Proof.Machine.execAluMin p a b s
  | .aluMax p a b => Sys2Proof.Machine.execAluMax p a b s
  | .aluMinn p a b => Sys2Proof.Machine.execAluMinn p a b s
  | .aluMaxn p a b => Sys2Proof.Machine.execAluMaxn p a b s
  | .aluCmp p a b => Sys2Proof.Machine.execAluCmp p a b s
  | .aluiAddi p a m => Sys2Proof.Machine.execAluiAddi p a m s
  | .aluiAndi p a m => Sys2Proof.Machine.execAluiAndi p a m s
  | .aluiOri p a m => Sys2Proof.Machine.execAluiOri p a m s
  | .aluiXori p a m => Sys2Proof.Machine.execAluiXori p a m s
  | .aluiShli p a m => Sys2Proof.Machine.execAluiShli p a m s
  | .aluiShri p a m => Sys2Proof.Machine.execAluiShri p a m s
  | .aluiSari p a m => Sys2Proof.Machine.execAluiSari p a m s
  | .aluiMuli p a m => Sys2Proof.Machine.execAluiMuli p a m s
  | .aluiCmpi p a m => Sys2Proof.Machine.execAluiCmpi p a m s
  | .aluiMini p a m => Sys2Proof.Machine.execAluiMini p a m s
  | .aluiMaxi p a m => Sys2Proof.Machine.execAluiMaxi p a m s
  | .aluiLda p a m => Sys2Proof.Machine.execAluiLda p a m s
  | .movi p a m => Sys2Proof.Machine.execMovi p a m s
  | .ldap p a m => Sys2Proof.Machine.execLdap p a m s
  | .fpuFadd p a b => Sys2Proof.Machine.execFpuFadd p a b s
  | .fpuFsub p a b => Sys2Proof.Machine.execFpuFsub p a b s
  | .fpuFmul p a b => Sys2Proof.Machine.execFpuFmul p a b s
  | .fpuFma p a b => Sys2Proof.Machine.execFpuFma p a b s
  | .fpuFmin p a b => Sys2Proof.Machine.execFpuFmin p a b s
  | .fpuFmax p a b => Sys2Proof.Machine.execFpuFmax p a b s
  | .fpuFcmp p a b => Sys2Proof.Machine.execFpuFcmp p a b s
  | .fpuFabs p a b => Sys2Proof.Machine.execFpuFabs p a b s
  | .fpuFneg p a b => Sys2Proof.Machine.execFpuFneg p a b s
  | .fpuFcvti p a b => Sys2Proof.Machine.execFpuFcvti p a b s
  | .fpuFcvtf p a b => Sys2Proof.Machine.execFpuFcvtf p a b s
  | .fpuFcvt p a b => Sys2Proof.Machine.execFpuFcvt p a b s
  | .fpuFclass p a b => Sys2Proof.Machine.execFpuFclass p a b s
  | .fpuFrnd p a b => Sys2Proof.Machine.execFpuFrnd p a b s
  | .fpuFscl p a b => Sys2Proof.Machine.execFpuFscl p a b s
  | .brcB p d => Sys2Proof.Machine.execBrcB p d s
  | .brcEq p d => Sys2Proof.Machine.execBrcEq p d s
  | .brcNe p d => Sys2Proof.Machine.execBrcNe p d s
  | .brcLt p d => Sys2Proof.Machine.execBrcLt p d s
  | .brcGe p d => Sys2Proof.Machine.execBrcGe p d s
  | .brcGt p d => Sys2Proof.Machine.execBrcGt p d s
  | .brcLe p d => Sys2Proof.Machine.execBrcLe p d s
  | .brcLo p d => Sys2Proof.Machine.execBrcLo p d s
  | .brcHs p d => Sys2Proof.Machine.execBrcHs p d s
  | .brcHi p d => Sys2Proof.Machine.execBrcHi p d s
  | .brcLs p d => Sys2Proof.Machine.execBrcLs p d s
  | .brcUn p d => Sys2Proof.Machine.execBrcUn p d s
  | .brcOr p d => Sys2Proof.Machine.execBrcOr p d s
  | .brcVs p d => Sys2Proof.Machine.execBrcVs p d s
  | .brcVc p d => Sys2Proof.Machine.execBrcVc p d s
  | .brcCall p d => Sys2Proof.Machine.execBrcCall p d s
  | .xferMov p a b => Sys2Proof.Machine.execXferMov p a b s
  | .xferJr p b => Sys2Proof.Machine.execXferJr p b s
  | .xferCallr p b => Sys2Proof.Machine.execXferCallr p b s
  | .xferRet p => Sys2Proof.Machine.execXferRet p s
  | .xferQcall p b => Sys2Proof.Machine.execXferQcall p b s
  | .xferMfs p a b => Sys2Proof.Machine.execXferMfs p a b s
  | .xferMts p a b => Sys2Proof.Machine.execXferMts p a b s
  | .xferStart p a b => Sys2Proof.Machine.execXferStart p a b s
  | .xferJoinh p b => Sys2Proof.Machine.execXferJoinh p b s
  | .xferCpl p b => Sys2Proof.Machine.execXferCpl p b s
  | .xferClz p a b => Sys2Proof.Machine.execXferClz p a b s
  | .xferPopc p a b => Sys2Proof.Machine.execXferPopc p a b s
  | .xferBswap p a b => Sys2Proof.Machine.execXferBswap p a b s
  | .xferTst p a b => Sys2Proof.Machine.execXferTst p a b s
  | .xferPurge p b => Sys2Proof.Machine.execXferPurge p b s
  | .xferIinv p a b => Sys2Proof.Machine.execXferIinv p a b s
  | .ld p a b l => Sys2Proof.Machine.execLd p a b l s
  | .ldV p a b l => Sys2Proof.Machine.execLdV p a b l s
  | .st p a b l => Sys2Proof.Machine.execSt p a b l s
  | .stV p a b l => Sys2Proof.Machine.execStV p a b l s
  | .vecAdd p a b => Sys2Proof.Machine.execVecAdd p a b s
  | .vecSub p a b => Sys2Proof.Machine.execVecSub p a b s
  | .vecMul p a b => Sys2Proof.Machine.execVecMul p a b s
  | .vecFma p a b => Sys2Proof.Machine.execVecFma p a b s
  | .vecMin p a b => Sys2Proof.Machine.execVecMin p a b s
  | .vecMax p a b => Sys2Proof.Machine.execVecMax p a b s
  | .vecAnd p a b => Sys2Proof.Machine.execVecAnd p a b s
  | .vecOr p a b => Sys2Proof.Machine.execVecOr p a b s
  | .vecXor p a b => Sys2Proof.Machine.execVecXor p a b s
  | .vecShl p a b => Sys2Proof.Machine.execVecShl p a b s
  | .vecShr p a b => Sys2Proof.Machine.execVecShr p a b s
  | .vecSar p a b => Sys2Proof.Machine.execVecSar p a b s
  | .vecAbs p a b => Sys2Proof.Machine.execVecAbs p a b s
  | .vecNeg p a b => Sys2Proof.Machine.execVecNeg p a b s
  | .vecMov p a b => Sys2Proof.Machine.execVecMov p a b s
  | .vecBc p a b => Sys2Proof.Machine.execVecBc p a b s
  | .vecCeq p a b => Sys2Proof.Machine.execVecCeq p a b s
  | .vecClt p a b => Sys2Proof.Machine.execVecClt p a b s
  | .vecCle p a b => Sys2Proof.Machine.execVecCle p a b s
  | .vecSel p a b => Sys2Proof.Machine.execVecSel p a b s
  | .vecRsum p a b => Sys2Proof.Machine.execVecRsum p a b s
  | .vecRmax p a b => Sys2Proof.Machine.execVecRmax p a b s
  | .vecRmin p a b => Sys2Proof.Machine.execVecRmin p a b s
  | .vecPerm p a b => Sys2Proof.Machine.execVecPerm p a b s
  | .vecSld p a b => Sys2Proof.Machine.execVecSld p a b s
  | .vecExt p a b => Sys2Proof.Machine.execVecExt p a b s
  | .vecIns p a b => Sys2Proof.Machine.execVecIns p a b s
  | .vecDot p a b => Sys2Proof.Machine.execVecDot p a b s
  | .vecIota p a b => Sys2Proof.Machine.execVecIota p a b s
  | .vecCvt p a b => Sys2Proof.Machine.execVecCvt p a b s
  | .vecQnt p a b => Sys2Proof.Machine.execVecQnt p a b s
  | .vecDqnt p a b => Sys2Proof.Machine.execVecDqnt p a b s
  | .vecPack p a b => Sys2Proof.Machine.execVecPack p a b s
  | .vecUnpk p a b => Sys2Proof.Machine.execVecUnpk p a b s
  | .vecLut p a b => Sys2Proof.Machine.execVecLut p a b s
  | .vecLdtb p b => Sys2Proof.Machine.execVecLdtb p b s
  | .vecRnd p a b => Sys2Proof.Machine.execVecRnd p a b s
  | .vecAddi p a b => Sys2Proof.Machine.execVecAddi p a b s
  | .vecMuli p a b => Sys2Proof.Machine.execVecMuli p a b s
  | .vecMini p a b => Sys2Proof.Machine.execVecMini p a b s
  | .vecMaxi p a b => Sys2Proof.Machine.execVecMaxi p a b s
  | .vecCeqi p a b => Sys2Proof.Machine.execVecCeqi p a b s
  | .vecClti p a b => Sys2Proof.Machine.execVecClti p a b s
  | .vecBci p a b => Sys2Proof.Machine.execVecBci p a b s
  | .vecFmai p a b => Sys2Proof.Machine.execVecFmai p a b s
  | .longDiv p a b l => Sys2Proof.Machine.execLongDiv p a b l s
  | .longDivn p a b l => Sys2Proof.Machine.execLongDivn p a b l s
  | .longRem p a b l => Sys2Proof.Machine.execLongRem p a b l s
  | .longRemn p a b l => Sys2Proof.Machine.execLongRemn p a b l s
  | .longFdiv p a b l => Sys2Proof.Machine.execLongFdiv p a b l s
  | .longFsqrt p a b l => Sys2Proof.Machine.execLongFsqrt p a b l s
  | .longVexp2 p a b l => Sys2Proof.Machine.execLongVexp2 p a b l s
  | .longVrcp p a b l => Sys2Proof.Machine.execLongVrcp p a b l s
  | .longVrsq p a b l => Sys2Proof.Machine.execLongVrsq p a b l s
  | .longVlog2 p a b l => Sys2Proof.Machine.execLongVlog2 p a b l s
  | .longCwait p a b => Sys2Proof.Machine.execLongCwait p a b s
  | .longCread p a b l => Sys2Proof.Machine.execLongCread p a b l s
  | .longCtest p a b l => Sys2Proof.Machine.execLongCtest p a b l s
  | .longWpwait p a b => Sys2Proof.Machine.execLongWpwait p a b s
  | .longSopen p a b l => Sys2Proof.Machine.execLongSopen p a b l s
  | .sendMsg p a b l => Sys2Proof.Machine.execSendMsg p a b l s
  | .sendQmsg p a b l => Sys2Proof.Machine.execSendQmsg p a b l s
  | .sendItem p a b l => Sys2Proof.Machine.execSendItem p a b l s
  | .sendMpush p a b l => Sys2Proof.Machine.execSendMpush p a b l s
  | .sendCpush p a b l => Sys2Proof.Machine.execSendCpush p a b l s
  | .sendSpush p a b l => Sys2Proof.Machine.execSendSpush p a b l s
  | .sendCadd p a b l => Sys2Proof.Machine.execSendCadd p a b l s
  | .sendCaddr p a b l => Sys2Proof.Machine.execSendCaddr p a b l s
  | .sendArm p a b l => Sys2Proof.Machine.execSendArm p a b l s
  | .sendReply p a b l => Sys2Proof.Machine.execSendReply p a b l s
  | .memSmap p a b => Sys2Proof.Machine.execMemSmap p a b s
  | .memSunmap p a => Sys2Proof.Machine.execMemSunmap p a s
  | .memSflush p a b => Sys2Proof.Machine.execMemSflush p a b s
  | .memSinv p a b => Sys2Proof.Machine.execMemSinv p a b s
  | .memSclose p a => Sys2Proof.Machine.execMemSclose p a s
  | .memLsclr p a b => Sys2Proof.Machine.execMemLsclr p a b s
  | .asyncTrap k => Sys2Proof.Machine.execAsyncTrap k s
  | .illegalInstruction e => Sys2Proof.Machine.execIllegalInstruction e s
  | .longResultWrite k h => Sys2Proof.Machine.execLongResultWrite k h s
  | .idleEnd k h => Sys2Proof.Machine.execIdleEnd k h s
  | .svcAnswer k h a => Sys2Proof.Machine.execSvcAnswer k h a s
  | .writeBackAccepted n => Sys2Proof.Machine.execWriteBackAccepted n s
  | .mma k => Sys2Proof.Machine.execMma k s
  | .mzero k => Sys2Proof.Machine.execMzero k s
  | .mmask k => Sys2Proof.Machine.execMmask k s
  | .mout k => Sys2Proof.Machine.execMout k s
  | .msig k => Sys2Proof.Machine.execMsig k s
  | .mlink k => Sys2Proof.Machine.execMlink k s
  | .mnop k => Sys2Proof.Machine.execMnop k s
  | .operandTileArrival k south => Sys2Proof.Machine.execOperandTileArrival k south s
  | .skimmerFetch k opB => Sys2Proof.Machine.execSkimmerFetch k opB s
  | .mxuSave k => Sys2Proof.Machine.execMxuSave k s
  | .rectangleRepair k => Sys2Proof.Machine.execRectangleRepair k s
  | .ccopy k ch => Sys2Proof.Machine.execCcopy k ch s
  | .ccopy2 k ch => Sys2Proof.Machine.execCcopy2 k ch s
  | .cfill k ch => Sys2Proof.Machine.execCfill k ch s
  | .csig k ch => Sys2Proof.Machine.execCsig k ch s
  | .sectorDelivery k ch => Sys2Proof.Machine.execSectorDelivery k ch s
  | .sectorAccepted k ch => Sys2Proof.Machine.execSectorAccepted k ch s
  | .nrd n => Sys2Proof.Machine.execNrd n s
  | .nwr n => Sys2Proof.Machine.execNwr n s
  | .nfl n => Sys2Proof.Machine.execNfl n s
  | .zdec n => Sys2Proof.Machine.execZdec n s
  | .csum n => Sys2Proof.Machine.execCsum n s
  | .storageCompletion n => Sys2Proof.Machine.execStorageCompletion n s
  | .commandTimeout n nvst => Sys2Proof.Machine.execCommandTimeout n nvst s
  | .counterAdd n => Sys2Proof.Machine.execCounterAdd n s
  | .armRegistration n => Sys2Proof.Machine.execArmRegistration n s
  | .armEmission n => Sys2Proof.Machine.execArmEmission n s
  | .cwaitPoll k h => Sys2Proof.Machine.execCwaitPoll k h s
  | .messageArrival n => Sys2Proof.Machine.execMessageArrival n s
  | .spillRefill k => Sys2Proof.Machine.execSpillRefill k s
  | .deliveryRetry n => Sys2Proof.Machine.execDeliveryRetry n s
  | .dispatch k => Sys2Proof.Machine.execDispatch k s
  | .itemAssign n => Sys2Proof.Machine.execItemAssign n s
  | .exportArrival n => Sys2Proof.Machine.execExportArrival n s
  | .vote n => Sys2Proof.Machine.execVote n s
  | .verdict n => Sys2Proof.Machine.execVerdict n s
  | .voteTimeout n => Sys2Proof.Machine.execVoteTimeout n s
  | .wdog k => Sys2Proof.Machine.execWdog k s
  | .preemption k => Sys2Proof.Machine.execPreemption k s
  | .resumption k => Sys2Proof.Machine.execResumption k s
  | .scrub k inst => Sys2Proof.Machine.execScrub k inst s
  | .versionSwitch k inst => Sys2Proof.Machine.execVersionSwitch k inst s
  | .purgeMark k inst => Sys2Proof.Machine.execPurgeMark k inst s
  | .purgeAck k inst => Sys2Proof.Machine.execPurgeAck k inst s
  | .queueTake qid => Sys2Proof.Machine.execQueueTake qid s
  | .quantumExpiry k inst => Sys2Proof.Machine.execQuantumExpiry k inst s
  | .slotRevocation k slot => Sys2Proof.Machine.execSlotRevocation k slot s
  | .loadRequest r => Sys2Proof.Machine.execLoadRequest r s
  | .switchRequest inst => Sys2Proof.Machine.execSwitchRequest inst s
  | .unstageRequest inst => Sys2Proof.Machine.execUnstageRequest inst s
  | .versionRemoval inst => Sys2Proof.Machine.execVersionRemoval inst s
  | .tableWalk n => Sys2Proof.Machine.execTableWalk n s
  | .pgfault n fix => Sys2Proof.Machine.execPgfault n fix s
  | .fetch k h fix => Sys2Proof.Machine.execFetch k h fix s
  | .tlbShootdown n => Sys2Proof.Machine.execTlbShootdown n s
  | .migr asid va die frame => Sys2Proof.Machine.execMigr asid va die frame s
  | .stubRemoval n => Sys2Proof.Machine.execStubRemoval n s
  | .ntCombine n => Sys2Proof.Machine.execNtCombine n s
  | .clusterCacheEviction n => Sys2Proof.Machine.execClusterCacheEviction n s
  | .stashFill k h => Sys2Proof.Machine.execStashFill k h s
  | .l2DecTedSwitch die => Sys2Proof.Machine.execL2DecTedSwitch die s
  | .l2SecDedReturn die => Sys2Proof.Machine.execL2SecDedReturn die s
  | .patrolRead unit addr found => Sys2Proof.Machine.execPatrolRead unit addr found s
  | .coreRetire r => Sys2Proof.Machine.execCoreRetire r s
  | .linkRetry unit ok => Sys2Proof.Machine.execLinkRetry unit ok s
  | .linkFailure f => Sys2Proof.Machine.execLinkFailure f s
  | .flitForward f => Sys2Proof.Machine.execFlitForward f s
  | .bringUp degraded failed => Sys2Proof.Machine.execBringUp degraded failed s
  | .powerThrottle mean => Sys2Proof.Machine.execPowerThrottle mean s
  | .mgPwrcapWrite v => Sys2Proof.Machine.execMgPwrcapWrite v s
  | .mgPkgidWrite v => Sys2Proof.Machine.execMgPkgidWrite v s
  | .bstatClear unit v => Sys2Proof.Machine.execBstatClear unit v s
  | .debugHalt k => Sys2Proof.Machine.execDebugHalt k s
  | .debugResume r => Sys2Proof.Machine.execDebugResume r s
  | .debugStep k h => Sys2Proof.Machine.execDebugStep k h s
  | .debugRead k t => Sys2Proof.Machine.execDebugRead k t s
  | .dataInjection k t xor v => Sys2Proof.Machine.execDataInjection k t xor v s
  | .checkBitInjection k t f => Sys2Proof.Machine.execCheckBitInjection k t f s
  | .instanceDestroy inst => Sys2Proof.Machine.execInstanceDestroy inst s
  | .powerLoss => Sys2Proof.Machine.execPowerLoss s
  | .routeChange dest sub => Sys2Proof.Machine.execRouteChange dest sub s

end Sys2Proof.Machine
end

