-- ==== Sys2Proof/Machine/Issue.lean ====
section
/-! DEFINITION. Which context issues (R15, R16), what it fetches, and what a step adds around an instruction (R30, R241, R381). -/

namespace Sys2Proof.Machine

/-- Is the wait of context h over (R15)? The waits that only an event ends are never over by themselves. -/
def waitMet (s : State) (h : Nat) (w : Wait) : Bool :=
  let c := s.core
  match w with
  | .none => true
  | .idle | .cwait _ _ | .cpl | .svc _ | .verdict => false
  | .fetch va => fetchable s (asidOf s) va
  | .wpwait ch th => th ≤ (c.chans.getD ch {}).chwp.toNat
  | .joinh j => joined s h j
  | .slot => (freeHelper s).isSome
  | .held => !(List.range 11).any (fun j => j != h && (ctxAt s j).live && (ctxAt s j).wp == c.twp)
  | .fill a => sectorValid c a
  | .dataFault va => writableRange s (asidOf s) va 1
  | .accept => !s.pkg.wb.any (fun b => b.waiters.contains (c.id, h))
  | .drain sc => !s.pkg.nts.any (fun n => n.core == c.id && n.ctx == h && (3 ≤ sc || homeDie s n.asid n.va == dieOf c.id))
  | .remote => !awayOpen { s with core := { c with cur := h } }
  | .mxuLut => !lutQueued c
  | .mxuRoom => c.mxu.q.length < 8
  | .chanRoom ch => (c.chans.getD ch {}).q.length < 4
  | .mxuBytes lo n => !mxuNames c lo n
  | .engines lo n => !mxuNames c lo n && !copyNames c lo n
  | .purge => !s.pkg.purges.any (fun p => p.core == c.id && p.ctx == h && (p.toMark != [] || p.toAck != []))
  | .forward k _ =>
    match c.act with
    | some a => match fwdEntry c (a.item - k) with
      | .valid j _ _ | .poison j _ => j == a.item - k
      | .empty => false
    | none => true
  | .holding => heldSize (heldNow s) ≤ 254
  | .mem => (c.memQ.takeWhile (· != h)).isEmpty
  | .count _ => true
  | .leader =>
    (ctxAt s h).leadPos < ((coreOf s ((groupOf s).getD 0 0)).ctxs.getD h {}).leadLog.length

/-- May context h issue (R15)? A halted core issues only the context that the debugger steps (R415). -/
def ready (s : State) (h : Nat) : Bool :=
  let x := ctxAt s h
  x.live && waitMet s h x.wait && (!s.core.halted || s.core.stepCtx == some h) &&
    (match s.core.act with | some a => (match a.st with | .preempted _ => false | _ => true) | none => true)

/-- The members of the focal core's gang in ascending order, itself among them (R231): the first is the leader (R211). -/
def gangMembers (s : State) : List Nat :=
  match s.core.gang with
  | .coupled m t => (maskCores s.core.id m.toNat).filter (fun k => (coreOf s k).gang == .coupled m t)
  | _ => []

/-- Is the control context of a core in the middle of an instruction? -/
def midWay (s : State) (k : Nat) : Bool := ((coreOf s k).ctxs.getD 0 {}).stage != 0

/-- Is the control context of core k ready (R15)? -/
def leadReady (s : State) (k : Nat) : Bool := ready (focusOn k s) 0

/-- May the control context issue as a member of its gang (R232): with every other member, or by itself where it is in the middle of
an instruction that the others wait for? -/
def gangReady (s : State) : Bool :=
  let ms := gangMembers s
  ms.all (fun k => k == s.core.id || leadReady s k) && !ms.any (midWay s) || midWay s s.core.id

/-- May context h issue, as R15 and, on a member of a gang, R232 have it? -/
def mayIssue (s : State) (h : Nat) : Bool :=
  ready s h && (h != 0 || (match s.core.gang with | .coupled _ _ => gangReady s | _ => true))

/-- The first ready context counting upward from the one after the last that issued (R16). While a gang does not issue, its members'
helpers do (R232). -/
def nextCtx (s : State) : Option Nat :=
  ((List.range 11).map (fun i => (s.core.cur + 1 + i) % 11)).find? (mayIssue s)

/-- Context h takes its turn: full windows are written, its wait is over, it is the one that issues. Free choices at one issue are
independent of those at another (R7). -/
def takeTurn (h : Nat) (s : State) : State :=
  bump (setCtxAt h (fun x => { x with wait := .none }) (updCore (fun c => { c with cur := h }) (landDue h s)))

/-- The watchdog counts a cycle of the running activation; pre-empted and halted cycles do not count (R241, R415). -/
def countCycle (s : State) : State :=
  if s.core.halted || preempted s.core then s else updAct (fun a => { a with wdogCount := a.wdogCount + 1 }) s

/-- What the issuing context fetches. -/
inductive Fetched
  | ok (i : Instr) (ws : List Half)
  | ill (e : Ill) (ws : List Half)
  | fault (va : Nat)
  | ue (pa : Nat)
  | dead
  deriving DecidableEq, Repr

/-- Does the issuing context stand before dead code that it may not issue (R381)? In PAIR and TRIAD modes the primary decides (R382). -/
def atDeadCode (s : State) : Bool := deadCode s (start s) && stageOf s == 0 && !secondary s

/-- Fetch and decode the chain at the pc of the issuing context. -/
def fetch (s : State) : Fetched :=
  let va := start s
  if atDeadCode s then .dead
  else
    match fetchChain s (asidOf s) va 6 with
    | (_, some f) => .fault f
    | (ws, none) =>
      match chainPoison s (asidOf s) va ws.length with
      | some pa => .ue pa
      | none =>
        match decode ws with
        | .ok i _ => .ok i ws
        | .ill e => .ill e ws
        | .short => .ill ⟨3, 4, ws.getD 4 0⟩ ws

/-- MODV names the version of the code that executes (R375). -/
def inVersion (s : State) : State :=
  match versionAt s (start s) with
  | some v => setCtx (fun x => { x with modv := BitVec.ofNat 16 v.tag }) s
  | none => s

/-- The state in which a fetched instruction executes: its words are kept and MODV names their version. -/
def fetchedState (ws : List Half) (s : State) : State := inVersion (keepWords (asidOf s) (start s) ws s)

/-- Where the export that an instruction forwards comes from, if its entry is VALID: the member that its item ran on (R238, R240). -/
def exporter (i : Instr) (s : State) : Option Nat :=
  match (preOf i).fwd, s.core.act with
  | some f, some a =>
    (match a.stage with
     | some g =>
       let j := a.item - f.k.toNat
       if a.item < f.k.toNat || g.k < f.k.toNat then none
       else match fwdEntry s.core j with
         | .valid x st _ => if x = j ∧ st = a.strm then some (g.group.getD (j % max g.group.length 1) s.core.id) else none
         | _ => none
     | none => none)
  | _, _ => none

/-- A forwarded read is an acquire of what the exporting item has committed (R240), made once for an instruction and before its effects, which
use the value (notes/assumptions/85.md). -/
def acquireExport (i : Instr) (s : State) : Res State :=
  match exporter i s with
  | some k =>
    if stageOf s = 0 && !(ctx s).acquired then (acquire (scopeOf k (leadCore s)) s).map (setCtx (fun x => { x with acquired := true })) else .ok s
  | none => .ok s

/-- What executes instructions: `exec`, as the step supplies it. -/
abbrev Exec := Instr → State → Host.Outcome State Fault Refusal

/-- A fetched instruction executes; a secondary whose acquire waits for the primary's stalls. -/
def executes (ex : Exec) (i : Instr) (t : State) : Host.Outcome State Fault Refusal :=
  match acquireExport i t with
  | .ok u => ex i u
  | .error _ => .next (block .leader t)

/-- What the issuing context does with what has been fetched. An error that the fetch consumes comes after a pending asynchronous cause
(notes/assumptions/96.md). -/
def perform (ex : Exec) (f : Fetched) (t : State) : Host.Outcome State Fault Refusal :=
  match f with
  | .ok i ws => executes ex i (fetchedState ws t)
  | .ill e ws => ex (.illegalInstruction e) (fetchedState ws t)
  | .fault va => .next (block (.fetch va) t)
  | .ue pa => .next (match asyncDue t with | some c => takeAsync c t | none => raiseUe pa t)
  | .dead => .next (takeStraggler (start t) t)

/-- How deep in trap handling a context is (R219). -/
def trapDepth (x : Ctx) : Nat := x.outer + b2n x.inTrap

/-- What follows the issue of a context that stood as in s: an injection that waits for the instruction's completion is made (R417), and a core
that the debugger has halted stops again, with its long results written, once the instruction that it steps is done (R415). -/
def concluded (s t : State) : State :=
  let x := ctxAt t s.core.cur
  let done := !x.live || (x.stage == 0 && (x.wait == .none || x.pc != (ctx s).pc))
  let u := if done && x.live && trapDepth x ≤ trapDepth (ctx s) && t.core.injections != [] then injectDue (start s) t else t
  if u.core.halted && done then flushAll (updCore (fun c => { c with stepCtx := none }) u) else u

/-- A trap that was held is taken in place of an issue (R29). -/
def orHeldTrap (t : State) (issue : Host.Outcome State Fault Refusal) : Host.Outcome State Fault Refusal :=
  match (ctx t).heldTrap with
  | some (c, v) => .next (takeTrap c v t)
  | none => match issue with | .next u => .next (concluded t u) | r => r

/-- The selected context of the focal core issues. -/
def issueCtx (ex : Exec) (h : Nat) (s : State) : Host.Outcome State Fault Refusal :=
  let t := takeTurn h s
  orHeldTrap t (perform ex (fetch t) t)

/-- Act on core k with an outcome, and give the focus back. -/
def onCore (k : Nat) (s : State) (f : State → Host.Outcome State Fault Refusal) : Host.Outcome State Fault Refusal :=
  if k = s.core.id then f s
  else
    let j := s.core.id
    match f { s with core := (look k s.others).getD { id := k }, others := put j s.core (Machine.drop k s.others) } with
    | .next t => .next { t with core := (look j t.others).getD { id := j }, others := put k t.core (Machine.drop j t.others) }
    | .fault r => .fault r
    | .refused r => .refused r

/-! ## Gangs (R231, R232) -/

/-- A member that is not the leader executes what the leader has fetched; the words are kept with its context. -/
def asMember (ex : Exec) (f : Fetched) (t : State) : Host.Outcome State Fault Refusal :=
  if atDeadCode t then .next (takeStraggler (start t) t)
  else match f with
    | .ok i ws => executes ex i (inVersion (holdWords (start t) ws t))
    | .ill e ws => ex (.illegalInstruction e) (inVersion (holdWords (start t) ws t))
    | .fault _ | .ue _ | .dead => .next t

/-- What the leader has fetched, on member k. -/
def issueMember (ex : Exec) (lead : Nat) (f : Fetched) (k : Nat) (s : State) : Host.Outcome State Fault Refusal :=
  onCore k s (fun u => let t := takeTurn 0 u; orHeldTrap t (if k = lead then perform ex f t else asMember ex f t))

/-- The same on some members one after another. -/
def issueMembers (ex : Exec) (lead : Nat) (f : Fetched) : List Nat → State → Host.Outcome State Fault Refusal
  | [], s => .next s
  | k :: ks, s =>
    match issueMember ex lead f k s with
    | .next t => issueMembers ex lead f ks t
    | .fault r => .fault r
    | .refused r => .refused r

/-- Has the control context of core k not issued: it stands where it stood, and waits? -/
def stalledAt (s t : State) (k : Nat) : Bool :=
  let x := (coreOf s k).ctxs.getD 0 {}
  let y := (coreOf t k).ctxs.getD 0 {}
  y.live && y.wait != .none && y.stage == x.stage && y.pc == x.pc && y.inTrap == x.inTrap

/-- The condition of a conditional branch (R124). -/
def condOf (f : Fetched) : Option Nat :=
  match f with
  | .ok i _ =>
    let w := (baseWord i).toNat
    if w / 4096 = 5 ∧ 1 ≤ w / 256 % 16 ∧ w / 256 % 16 ≤ 14 then some (w / 256 % 16) else none
  | _ => none

/-- The outcomes of a branch on condition n, each as its member finds it. -/
def outcomes (ex : Exec) (lead : Nat) (f : Fetched) (n : Nat) : List Nat → State → List (Nat × Bool)
  | [], _ => []
  | k :: ks, s =>
    (k, condHolds (flg (takeTurn 0 (focusOn k s))) n) :: (match issueMember ex lead f k s with
      | .next t => outcomes ex lead f n ks t
      | _ => [])

/-- Is a core a member of a coupled gang? -/
def coupled (s : State) (k : Nat) : Bool := match (coreOf s k).gang with | .coupled _ _ => true | _ => false

/-- The members of a list that are still coupled are ALONE from here on, each on its own outcome, where the outcomes differ or the
addresses at which they go on (R231). A member in the middle of the instruction settles nothing yet. -/
def settleGang (ms : List Nat) (differ : Bool) (s : State) : State :=
  let still := ms.filter (coupled s)
  let pcs := still.map (fun k => ((coreOf s k).ctxs.getD 0 {}).pc)
  if still.any (midWay s) || (!differ && pcs.all (fun p => some p == pcs.head?)) then s
  else still.foldl (fun t k => setCore k { coreOf t k with gang := .alone } t) s

/-- A coupled gang issues in lock-step under the leader's fetch, unless a member stalls: then every member does (R232). -/
def issueLockStep (ex : Exec) (ms : List Nat) (s : State) : Host.Outcome State Fault Refusal :=
  let lead := ms.headD s.core.id
  let f := fetch (takeTurn 0 (focusOn lead s))
  match f with
  | .ok _ _ | .ill _ _ =>
    (match issueMembers ex lead f ms s with
     | .next t =>
       let late := ms.filter (stalledAt s t)
       if late.isEmpty then
         (match condOf f with
          | some n =>
            let os := ((outcomes ex lead f n ms s).filter (fun o => coupled t o.1)).map (·.2)
            .next (settleGang ms (os.contains true && os.contains false) t)
          | none => .next (settleGang ms false t))
       else issueMembers ex lead f late s
     | r => r)
  | .fault _ | .ue _ | .dead => issueMembers ex lead f [lead] s

/-- The control context of a gang's member issues: in the middle of an instruction by itself, else with every member. -/
def issueGang (ex : Exec) (s : State) : Host.Outcome State Fault Refusal :=
  let ms := gangMembers s
  if midWay s s.core.id then
    (match issueCtx ex 0 s with
     | .next t => .next (settleGang ms false t)
     | r => r)
  else
    let t := settleGang ms false s
    match t.core.gang with
    | .coupled _ _ => issueLockStep ex ms t
    | _ => issueCtx ex 0 t

/-- The chosen context issues. -/
def issueNext (ex : Exec) (h : Nat) (s : State) : Host.Outcome State Fault Refusal :=
  match s.core.gang with
  | .coupled _ _ => if h = 0 then issueGang ex s else issueCtx ex h s
  | _ => issueCtx ex h s

/-- A word placed where the next instruction is fetched: bytes at a global address of an address space. -/
def placeWords (asid va : Nat) (ws : List Half) (s : State) : State :=
  homeWrite asid va (wordBytes ws) s

/-- A machine whose control context fetches next: one page of text at 0x40_0000_0000, an activation with the full window, WP
0x0_8000, TWP 0x0_9000. It stands for the load and the dispatch of a program (R228, R361). -/
def withProgram (s : State) : State :=
  let v : Version := { tag := 1, base := 0x4000000000, textLo := 0x4000000000, textHi := 0x4000010000, tvec := 0x4000008000,
                       twp := 0x9000, gp := 0x7000, wsb := 0x8000 }
  let x : Inst := { asid := 1, placement := [s.core.id], versions := [v], newest := some 1 }
  let a : Act := { inst := 1, vtag := 1, nw := 64, nv := 16, trig := { hdr := 0, t0 := 0, t1 := 0 } }
  { s with
    agenda := []
    turns := []
    core := { s.core with
      ctxs := mapAt (fun _ => { live := true, pc := 0x4000000000, wp := 0x8000, modv := 1 }) 0 (List.replicate 11 {})
      cur := 10, tvec := 0x4000008000, twp := 0x9000, act := some a, insts := put 1 { newest := some 1 } s.core.insts
      resident := some 1, lastAsid := some 1, halted := false, icache := [] }
    pkg := { s.pkg with
      powered := true
      pages := { asid := 1, va := 0x4000000000, size := 1, frame := 0x100000, die := 0 } :: s.pkg.pages
      insts := put 1 x s.pkg.insts } }

/-- The state with some words where the next instruction is fetched. -/
def withWords (ws : List Half) (s : State) : State :=
  let t := { s with agenda := [], turns := [], core := { s.core with icache := [] } }
  match nextCtx t with
  | some h =>
    let u := setCtxAt h (fun x => { x with fetched := [], heldTrap := none }) (match t.core.gang with
      | .coupled _ _ => { t with others := t.others.map (fun o =>
          (o.1, { o.2 with icache := [], ctxs := mapAt (fun x => { x with fetched := [] }) 0 o.2.ctxs })) }
      | _ => t)
    if fetchable u (asidOf u) (ctxAt u h).pc.toNat && u.pkg.powered then placeWords (asidOf u) (ctxAt u h).pc.toNat ws u
    else placeWords 1 0x4000000000 ws (withProgram s)
  | none => placeWords 1 0x4000000000 ws (withProgram s)

/-! ## What is due when no context issues -/

/-- Index of the first element with a property. -/
def firstAt {α : Type} (p : α → Bool) (l : List α) : Option Nat := l.findIdx? p

/-- A context of the focal core that an event can free: a counter wait that an asynchronous cause cancels, a fill, a CWAIT whose
counter has come. -/
def dueCtx (s : State) : Option Instr :=
  if (ctxAt s 0).live && cancellable (ctxAt s 0) && (asyncDue { s with core := { s.core with cur := 0 } }).isSome then
    some (.asyncTrap s.core.id)
  else (List.range 11).findSome? (fun h => match (ctxAt s h).wait with
    | .fill a => match fillPlace s.core a with
      | some (i, n, va) =>
        if (if secondary s then (match s.core.wins.getD i none with | some w => (primaryFill s h i n w).isSome | none => false)
            else !migrating s (asidOf s) va && (sectorBytes s (asidOf s) va).isSome)
        then some (.stashFill s.core.id h) else none
      | none => some (.stashFill s.core.id h)
    | .cwait va th => if (ctrPage s (asidOf s) va).isSome && th ≤ ctrVal s (asidOf s) va then some (.cwaitPoll s.core.id h) else none
    | _ => none)

/-- The MXU of the focal core: its head, the skimmer, the neighbours. -/
def dueMxu (s : State) : Option Instr :=
  let c := s.core
  let k := c.id
  if (skimReady s false).isSome then some (.skimmerFetch k false)
  else if (skimReady s true).isSome then some (.skimmerFetch k true)
  else if (nextArrival k false s).isSome then some (.operandTileArrival k false)
  else if (nextArrival k true s).isSome then some (.operandTileArrival k true)
  else match mxuHead c (fun _ => true) with
    | none => none
    | some e =>
      match mOp e.cmd with
      | 1 => some (.mzero k)
      | 2 => some (.mmask k)
      | 3 => if (moutFault s e).isSome && !e.second then none else some (.mout k)
      | 4 => some (.msig k)
      | 5 => some (.mlink k)
      | 6 => some (.mnop k)
      | _ => if e.begun && (mmaClash c e).isNone && ((nextTile c e false).isNone || (nextTile c e true).isNone) then none else some (.mma k)

/-- The copy channels of the focal core. -/
def dueChan (s : State) : Option Instr :=
  let k := s.core.id
  (List.range 4).findSome? (fun ch =>
    match chanHead s.core ch (fun _ => true) false with
    | some e => if !sendsInTurn s ch e && fld e.cmd 7 0 == 4 then none else (match fld e.cmd 7 0 with
      | 1 => some (.ccopy k ch) | 2 => some (.ccopy2 k ch) | 3 => some (.cfill k ch) | _ => some (.csig k ch))
    | none => match chanHead s.core ch (fun _ => true) true with
      | some e => if (chanFault s s.core ch).isSome || !sendsInTurn s ch e then none
        else if copyInbound e.cmd then some (.sectorDelivery k ch) else some (.sectorAccepted k ch)
      | none => none)

/-- The storage engines. -/
def dueSto (s : State) : Option Instr :=
  match (List.range s.pkg.sto.length).find? (stoReady s) with
  | some n => (match s.pkg.sto[n]? with
    | some e => (match stoOp e with
      | 1 => some (.nrd n) | 2 => some (.nwr n) | 3 => some (.nfl n) | 4 => some (.zdec n) | _ => some (.csum n))
    | none => none)
  | none => (firstAt (slotWritable s) s.pkg.stoDone).map .storageCompletion

/-- What travels: write-backs, adds, arms, votes, messages, items, exports, non-temporal stores. -/
def dueFlow (s : State) : Option Instr :=
  let g := s.pkg
  let stop := fun (n : Nat) (f : Flight) => !inTurn s n f
  let msg := (List.range g.msgs.length).findSome? (fun n => match g.msgs[n]? with
    | some f => if stop n f then none else if f.msg.strm.isSome then some (Instr.itemAssign n)
      else if !f.refused then some (.messageArrival n)
      else if hasRoom s f.dest (hInst f.msg.hdr) then some (.deliveryRetry n) else none
    | none => none)
  if let some n := (List.range g.wb.length).find? (backReady s) then some (.writeBackAccepted n)
  else if !(unacked s).isEmpty then some (.tlbShootdown 0)
  else if g.adds != [] then some (.counterAdd 0)
  else if let some n := firstAt (fun a => !a.registered) g.arms then some (.armRegistration n)
  else if g.votes != [] then some (.vote 0)
  else if let some n := firstAt (fun v => (ballots s v.group v.ctx).length == v.group.length) g.unit then some (.verdict n)
  else if let some e := msg then some e
  else if let some n := (List.range g.armOut.length).find? (armReady s) then some (.armEmission n)
  else if let some n := firstAt (slotEmpty s) g.exps then some (.exportArrival n)
  else ((List.range g.nts.length).find? (ntReady s)).map .ntCombine

/-- Klogar's steps on the focal core, and a dispatch. -/
def dueCore (s : State) : Option Instr :=
  let k := s.core.id
  let g := s.pkg
  if let some p := g.switches.find? (fun p => p.1 == k) then some (.versionSwitch k p.2)
  else if let some p := g.purges.find? (fun p => p.toMark.contains k) then some (.purgeMark k p.inst)
  else if let some p := g.purges.find? (fun p => p.toAck.contains k && !p.toMark.contains k) then some (.purgeAck k p.inst)
  else match s.core.resident with
    | none => none
    | some i => match look i g.insts with
      | none => none
      | some x =>
        if x.fresh.contains k then some (.scrub k i)
        else if (saveOf s k i).isSome then some (.resumption k)
        else if s.core.mxu.broken then some (.rectangleRepair k)
        else if s.core.spill != [] && s.core.inbound.length < 64 then some (.spillRefill k)
        else if mayDispatch s i x then
          (match choose s.core i x 4 s.core.disp.source (s.core.disp.grant.getD (weightOf x s.core.disp.source)) with
           | some _ => some (.dispatch k)
           | none => (g.queues.find? (fun q => q.2.inst == i && mayTake s q.1 q.2 x)).map (fun q => .queueTake q.1))
        else none

/-- Klogar's steps for placements on the focal core (R332, R333): a pre-emption that has begun goes on, and the chosen instance takes
a core where none is resident, or one without work or of a lower priority. A quantum that expires is no step of this schedule. -/
def dueTenancy (s : State) : Option Instr :=
  let k := s.core.id
  if preempted s.core then some (.preemption k)
  else
    let yields := fun (p : Nat) => match s.core.resident with
      | none => true
      | some i => match look i s.pkg.insts with | some y => !hasWork s i y || priOf s i < p | none => true
    (s.pkg.insts.find? (fun x => (membersOf x.2).contains k && yields (priOf s x.1) && chosen s x.1 x.2)).map
      (fun x => .quantumExpiry k x.1)

/-- What Klogar owes a context of the focal core that waits for it (R106, R393), and an access that waits for a page (R391): without
a schedule of its own it refuses a service (status 3, or what the arguments ask for), and gives up the fetch and the access. -/
def dueKlogar (s : State) : Option Instr :=
  ((List.range 11).findSome? (fun h => match (ctxAt s h).wait with
    | .svc _ => if secondary s then none else some (.svcAnswer s.core.id h ⟨3, 0, 0⟩)
    | .fetch va => if fetchable s (asidOf s) va then none else some (.fetch s.core.id h none)
    | _ => none)).orElse (fun _ => if (sites s).isEmpty then none else some (.pgfault 0 none))

/-- The first step that is due on the focal core, or in what travels, when no context is ready. -/
def dueEvent (s : State) : Option Instr :=
  (dueCtx s).orElse (fun _ => (dueMxu s).orElse (fun _ => (dueChan s).orElse (fun _ => (dueSto s).orElse (fun _ =>
    (dueFlow s).orElse (fun _ => (dueCore s).orElse (fun _ => (dueTenancy s).orElse (fun _ => dueKlogar s)))))))

end Sys2Proof.Machine
end

