-- ==== Sys2Proof/Machine/Step.lean ====
section
/-! DEFINITION. One step of the machine: the head of the agenda; else the core whose turn it is issues an instruction of the
context that R16 chooses; with no ready context the first engine step that is due happens, or an idle cycle passes. -/

namespace Sys2Proof.Machine

/-- One cycle of the focal core. -/
def coreStep (s : State) : Host.Outcome State Fault Refusal :=
  let s := countCycle s
  if wdogDue s then exec (.wdog s.core.id) s
  else
    match nextCtx s with
    | some h => issueNext exec h s
    | none => match dueEvent s with | some e => exec e s | none => .next s

/-- One step. -/
def step (s : State) : Host.Outcome State Fault Refusal :=
  match s.agenda with
  | e :: rest => exec e { s with agenda := rest }
  | [] =>
    if !s.pkg.powered then .fault .powerOff
    else
      match s.turns with
      | k :: rest => onCore k { s with turns := rest } coreStep
      | [] => coreStep s

/-- The state with an instruction, its bits numbered as the opcode table numbers them, where step fetches its next one. -/
def State.withFetchWord (s : State) (nbits w : Nat) : State :=
  withWords (halvesOf ((nbits + 15) / 16) w ++ [0, 0, 0, 0, 0]) s

end Sys2Proof.Machine
end

