-- ==== Sys2Proof/Machine/Image.lean ====
section
/-! DEFINITION. The save image as the save engine lays it out (R334, R335): the 285 KiB of one core, of the state that `saveImage` keeps. -/

namespace Sys2Proof.Machine

/-- Bytes from address 0. -/
def ofBytes (bs : List Byte) : Memory := writeBytes [] 0 bs

/-- Little-endian words of n bytes each. -/
def leWords (n : Nat) (xs : List Nat) : List Byte := xs.flatMap (fun x => bytesLE x n)

/-- The header (R335). -/
def imageHeader (sv : Save) : Nat :=
  let a := sv.image.act
  let live := (List.range 11).foldl (fun n h => if (sv.image.ctxs.getD h {}).live then n + 2 ^ h else n) 0
  1 + b2n a.isSome * 2 ^ 16 + live * 2 ^ 32 + (match a with | some a => a.redm % 4 | none => 0) * 2 ^ 48 + sv.core % 2 ^ 14 * 2 ^ 50 +
    sv.inst % 2 ^ 16 * 2 ^ 64 + sv.asid % 2 ^ 16 * 2 ^ 80 + sv.rev % 2 ^ 16 * 2 ^ 96 + sv.feat % 2 ^ 64 * 2 ^ 128 + sv.live % 2 ^ 64 * 2 ^ 192

/-- PC, WP, FLG with LA (R36) and REPST of the contexts. -/
def imageCtxs (c : Core) : List Byte :=
  (List.range 11).flatMap (fun h => let x := c.ctxs.getD h {}; leWords 8 [x.pc.toNat, x.wp.toNat, withLa (laOf x) x.flg, x.repst.toNat])

/-- The registers of the core, and the version that each context executes (R375). -/
def imageRegs (inst : Nat) (c : Core) : List Byte :=
  leWords 8 [c.tvec.toNat, c.twp.toNat, c.sleep.toNat, c.qstat.toNat, c.fpst.toNat, c.actCount.toNat, genOf c inst] ++
    leWords 2 ((List.range 11).map (fun h => (c.ctxs.getD h {}).modv.toNat))

/-- The stash windows: SMAP descriptor and VA. -/
def imageWins (c : Core) : List Byte :=
  (List.range 4).flatMap (fun i => match c.wins.getD i none with
    | some w => leWords 8 [i + w.base / 256 * 2 ^ 8 + (w.len / 256 - 1) * 2 ^ 24, w.va]
    | none => leWords 8 [0, 0])

/-- The copy channels: CHWP and open state. -/
def imageChans (c : Core) : List Byte := c.chans.flatMap (fun x => leWords 8 [x.chwp.toNat, b2n x.isOpen])

/-- For each MXU queue entry its K step, its scale pair, and whether it has begun and its segment has committed. -/
def imageMxu (c : Core) : List Byte :=
  c.mxu.q.flatMap (fun e => leWords 8 [e.step, e.scale.toNat, b2n e.begun + 2 * b2n e.committed])

/-- The activation record. -/
def imageAct (c : Core) : List Byte :=
  match c.act with
  | none => []
  | some a =>
    let perCtx := fun (f : Ctx → Nat) => (List.range 11).foldl (fun n h => n + f (c.ctxs.getD h {}) * 2 ^ h) 0
    (if a.retained then msgBytes a.trig else List.replicate 32 0) ++
      leWords 8 [a.wdogCount, b2n a.wdogOnce + 2 * b2n a.redeliver, perCtx (fun x => min x.replays 1), perCtx (fun x => b2n x.firstSeg)]

/-- The store journal of a context: 512 entries of 8 bytes. -/
def imageJournal (x : Ctx) : List Byte := (x.journal.take 512).flatMap (·.2)

/-- Bytes in entries of 32, the last one filled with zeros. -/
def chunks32 (bs : List Byte) : List Byte := bs ++ List.replicate ((32 - bs.length % 32) % 32) 0

/-- A held output in its entries of 32 bytes. -/
def imageHeld (e : Held) : List Byte :=
  let pad := fun (bs : List Byte) => bs.take 32 ++ List.replicate (32 - bs.length) 0
  match e.out with
  | .msg m | .reply m => msgBytes m
  | .arm va th m => pad (leWords 8 [va, th]) ++ msgBytes m
  | .add va inc => pad (leWords 8 [va, inc])
  | .nt va bs | .stash va bs => chunks32 (leWords 8 [va] ++ bs)

/-- Where the tagged sectors of the windows stand in the section, window after window: its images and its masks. -/
def imageTagged (c : Core) : List (Nat × Byte) × List Nat :=
  let starts := (List.range 4).map (fun i => ((List.range i).map (fun j => match c.wins.getD j none with | some w => w.len | none => 0)).foldl (· + ·) 0)
  let at_ := (List.range 4).flatMap (fun i => match c.wins.getD i none with
    | some w => w.tagged.map (fun t => (starts.getD i 0 + (t.1 - w.base), memRead c.ls t.1))
    | none => [])
  (at_, at_.map (·.1))

/-- Bytes at a place of the image. -/
def imagePart (off : Nat) (m : Memory) : Memory := m.map (fun c => (c.1 + off, c.2))

/-- The image (R334), section by section. -/
def imageBytes (sv : Save) : Memory :=
  let c := sv.image
  let t := imageTagged c
  let masks := t.2.foldl (fun m o => memWrite m (o / 8) (memRead m (o / 8) ||| BitVec.ofNat 8 (2 ^ (o % 8)))) []
  imagePart 0 (ofBytes (bytesLE (imageHeader sv) 64)) ++
  imagePart 0x40 (ofBytes (imageCtxs c)) ++
  imagePart 0x1A0 (ofBytes (imageRegs sv.inst c)) ++
  imagePart 0x200 (ofBytes (imageWins c)) ++
  imagePart 0x240 (ofBytes (imageChans c)) ++
  imagePart 0x280 (ofBytes (bytesLE c.lut.toNat 16)) ++
  imagePart 0x2C0 (ofBytes (bytesLE c.mxu.mask.toNat 64)) ++
  imagePart 0x300 (ofBytes (bytesLE c.mxu.link.toNat 64)) ++
  imagePart 0x340 (ofBytes (imageMxu c)) ++
  imagePart 0x400 (ofBytes (c.mxu.q.flatMap (fun e => bytesLE e.cmd.toNat 64))) ++
  (List.range 4).flatMap (fun i => imagePart (0x600 + 256 * i) (ofBytes ((c.chans.getD i {}).q.flatMap (fun e => bytesLE e.cmd.toNat 64)))) ++
  (List.range 32).flatMap (fun i => imagePart (0xA00 + 32 * i) (ofBytes (fwdBytes (c.fwd.getD i .empty)))) ++
  imagePart 0xE00 (ofBytes (imageAct c)) ++
  (List.range 11).flatMap (fun h => imagePart (0x1000 + 4096 * h) (ofBytes (imageJournal (c.ctxs.getD h {})))) ++
  imagePart 0xC000 (ofBytes ((bufferTiles c.mxu false).flatMap (·.bytes))) ++
  imagePart 0xD000 (ofBytes ((bufferTiles c.mxu true).flatMap (·.bytes))) ++
  imagePart 0xE000 (ofBytes (c.ready.flatMap msgBytes)) ++
  imagePart 0x10000 (ofBytes ((match c.act with | some a => a.held | none => []).flatMap imageHeld)) ++
  imagePart 0x12000 (t.1.foldl (fun m x => memWrite m x.1 x.2) []) ++
  imagePart 0x22000 masks ++
  imagePart 0x24000 (c.ls.filter (fun x => x.1 < 0x1F000)) ++
  (List.range 11).flatMap (fun h => imagePart (0x43000 + 1568 * h) ((c.ctxs.getD h {}).snap.getD []))

end Sys2Proof.Machine
end

