-- ==== Sys2Proof/Safety.lean ====
section
/-! DEFINITION. What a run of the machine is, what counts as a safe one, the invariant of the state, and the words in which the
statements speak of a step: what it needs, what it writes, what it leaves. -/

namespace Sys2Proof.Machine

/-- The machine after some steps, or none when it has stopped. -/
def runFor : Nat → State → Option State
  | 0, s => some s
  | n + 1, s => match step s with | .next t => runFor n t | _ => none

/-- A safe stop: the machine has no power (R267). -/
def safeFault (f : Fault) : Bool := match f with | .powerOff => true

/-! ## The invariant -/

/-- A core: its local store is in canonical form, it has eleven contexts, and one of them issued last (R14, R16). -/
def Core.wf (c : Core) : Bool := Memory.wf c.ls && c.ctxs.length == 11 && decide (c.cur < 11)

/-- Home memory, every core that the state lists and every save image. -/
def State.wf (s : State) : Bool :=
  Memory.wf s.pkg.mem && Core.wf s.core && s.others.all (fun o => Core.wf o.2) && s.pkg.saves.all (fun v => Core.wf v.image)

/-! ## What an instruction needs -/

/-- The issuing context runs its next instruction and nothing beside it: it waits for nothing, no asynchronous cause is due, no long result is
outstanding, no bellows body is replayed. -/
def State.plain (s : State) : Prop :=
  s.wf = true ∧ asyncDue s = none ∧ (ctx s).wait = .none ∧ (ctx s).longs = [] ∧ repActive (ctx s).repst.toNat = false

/-- The registers are inside the window, their bytes present, and those that are read not poisoned (R19, R133, R137, R407). -/
def usable (s : State) (ws vs : List Nat) : Prop := names s ws vs = .ok () ∧ reads s ws vs = .ok ()

/-- A vector instruction without PFX.F may use its registers: named in the window, free of MXU commands, and those that are read not poisoned. -/
def vecReady (s : State) (ws vs rw rv : List Nat) : Prop := vecNames s ws vs = .ok () ∧ reads s rw rv = .ok ()

/-- The n bytes at ea can be accessed: in the general local store, or by privileged code above it; aligned, in no queued MXU command, in a valid
sector (R132, R133). -/
def reachable (s : State) (ea n : Nat) : Prop :=
  (ea < 0x1F000 ∨ (ctx s).priv = true) ∧ ea + n ≤ 0x20000 ∧ ea % n = 0 ∧ mxuNames s.core ea n = false ∧ sectorValid s.core ea = true

/-- A strong or acq load at die scope or wider that has not asked yet reads its sector again from its home (R254). -/
def asksHome (p : Pre) (ea : Nat) (s : State) : Bool :=
  match winAt s.core ea with
  | some (_, w) => memOrder p % 2 == 1 && 2 ≤ effScope p ea s && (ctx s).stage == 0 &&
      !w.tagged.any (fun t => sectorOf w t.1 == sectorOf w ea)
  | none => false

/-- The issuing context begins its instruction. -/
def begins (s : State) : Prop := (ctx s).stage = 0 ∧ (ctx s).ops = []

/-- The instruction stands at its commit point in single mode, and its held outputs can be read. -/
def atCommit (s : State) : Prop := redundant s = false ∧ badHeld s = false ∧ begins s

/-! ## What a step does -/

/-- The n bytes at lo and the issuing context are all that has changed; a mapped window tags its bytes and notes what they held (R138,
R244), whole granules lose their poison marks. -/
def onlyBytes (lo n : Nat) (s t : State) : Prop :=
  t = { s with core := { s.core with
    ls := t.core.ls
    ctxs := t.core.ctxs
    wins := s.core.wins.map (Option.map (fun w => tagWin s.core.cur lo n (remember s.core.ls lo n w)))
    poison := unmark lo n s.core.poison } } ∧
  (∀ a, a < lo ∨ lo + n ≤ a → memRead t.core.ls a = memRead s.core.ls a) ∧
  (∀ h, h ≠ s.core.cur → ctxAt t h = ctxAt s h)

/-- Only the issuing context has changed. -/
def onlyCtx (s t : State) : Prop :=
  t = { s with core := { s.core with ctxs := t.core.ctxs } } ∧ (∀ h, h ≠ s.core.cur → ctxAt t h = ctxAt s h)

/-- The issuing context stands at an address and is otherwise as before. -/
def standsAt (a : Nat) (s t : State) : Prop := ctx t = (ctx s).wentTo a

/-- The bytes at lo have taken bs, nothing else has changed, the issuing context goes on at a. -/
def wrote (a lo : Nat) (bs : List Byte) (s t : State) : Prop :=
  readBytes t.core.ls lo bs.length = bs ∧ onlyBytes lo bs.length s t ∧ standsAt a s t

/-- A long result (R30): with la = 0 its bytes are written at once; else it is outstanding for la instructions. -/
def landed (a : Nat) (l : BitVec 4) (lo : Nat) (bs : List Byte) (s t : State) : Prop :=
  if l = 0 then wrote a lo bs s t
  else onlyCtx s t ∧ ctx t = { (ctx s).wentTo a with longs := [{ addr := lo, bytes := bs, flags := none, left := l.toNat }] }

/-- The instruction completes and its context goes on at a: the bytes at lo take bs, nothing else changes against u (the state before
it, or that state with sticky status). -/
def givesBytes (i : Instr) (a lo : Nat) (bs : List Byte) (s u : State) : Prop := ∃ t, exec i s = .next t ∧ wrote a lo bs u t

/-- The instruction completes: W[n] takes v, nothing else changes, the context goes on at a. -/
def givesRegAt (i : Instr) (a n : Nat) (v : Word) (s : State) : Prop :=
  ∃ t, exec i s = .next t ∧ readLE t.core.ls (wAddr s n) 8 = v.toNat ∧ onlyBytes (wAddr s n) 8 s t ∧ standsAt a s t

/-- The instruction completes: W[n] takes v, nothing else changes, the next instruction follows. -/
def givesReg (i : Instr) (p : Pre) (n : Nat) (v : Word) (s : State) : Prop := givesRegAt i (nextPc p s) n v s

/-- The instruction completes with a long result; nothing else changes. -/
def givesLong (i : Instr) (p : Pre) (l : BitVec 4) (lo : Nat) (bs : List Byte) (s u : State) : Prop :=
  ∃ t, exec i s = .next t ∧ landed (nextPc p s) l lo bs u t

/-- The state with status bits set in FPST and QSTAT (R54, R55): they are sticky. -/
def sticky (st : Nat) (sat : Bool) (s : State) : State :=
  { s with core := { s.core with
    fpst := s.core.fpst ||| BitVec.ofNat 64 st
    qstat := s.core.qstat ||| BitVec.ofNat 64 (b2n sat) } }

/-- The instruction completes: the five flags U V C N Z take f, no other bit of FLG changes, nothing else changes (R113). -/
def givesFlags (i : Instr) (p : Pre) (z n c v u : Bool) (s : State) : Prop :=
  ∃ t w, exec i s = .next t ∧ onlyCtx s t ∧
    ctx t = { (ctx s).wentTo (nextPc p s) with flg := w } ∧
    w.getLsbD 0 = z ∧ w.getLsbD 1 = n ∧ w.getLsbD 2 = c ∧ w.getLsbD 3 = v ∧ w.getLsbD 4 = u ∧ w >>> 5 = (ctx s).flg >>> 5

/-- The instruction completes: the issuing context goes on at an address, nothing else changes. -/
def goesTo (i : Instr) (a : Nat) (s : State) : Prop := ∃ t, exec i s = .next t ∧ onlyCtx s t ∧ standsAt a s t

/-- The instruction completes as an ordinary one: the part of its effect that f describes, then the next instruction. -/
def leads (i : Instr) (p : Pre) (s : State) (f : State → State) : Prop := exec i s = .next (goTo (nextPc p s) (f s))

/-- Core k in the focus. -/
def focus (k : Nat) (s : State) : State :=
  { s with
    core := coreOf s k
    others := put s.core.id s.core (drop k s.others) }

end Sys2Proof.Machine
end

