-- ==== Sys2Proof/Certificates/Slice0/Obligations.lean ====
section
/-! DEFINITION. The statements for the provers. The words that they are said in stand in Safety.lean. -/

open Sys2Proof Sys2Proof.Machine

/-! ## Encoding -/

/-- R74 to R91, R98, R114, R119, R123, R128, R161: worked words of the spec, one or more for each family, decode to the instructions they stand for.
R82, R86 to R88, R91 to R93, R418: the rejected chains of the table of R418 with their REASON, INDEX and WORD, and what the trap value makes of them
(R92). -/
def Obligations.SpecWords : Prop :=
  (decode [0x0000] = .ok .sysNop 1 ∧ decode [0x0010] = .ok .sysEnd 1 ∧
   decode [0xE105, 0x1441] = .ok (.aluSub { reg := some ⟨1, 0, 5⟩ } 4 4) 2 ∧
   decode [0xE840, 0x1640] = .ok (.aluAdd { fwd := some ⟨false, 4⟩ } 6 4) 2 ∧
   decode [0xF006, 0x2404] = .ok (.aluiAddi { imms := [6] } 4 4) 2 ∧
   decode [0x3405] = .ok (.movi {} 4 5) 1 ∧
   decode [0x6402] = .ok (.ldap {} 4 2) 1 ∧
   decode [0xE00C, 0xEC08, 0x467B] = .ok (.fpuFcvt { reg := some ⟨0, 0, 12⟩, qual := some ⟨0, 0, false, 8⟩ } 6 7) 3 ∧
   decode [0x52FE] = .ok (.brcNe {} 0xFE) 1 ∧
   decode [0xE040, 0x7426] = .ok (.xferMts { reg := some ⟨0, 1, 0⟩ } 4 2) 2 ∧
   decode [0xF001, 0xF234, 0xE100, 0xECE0, 0x8451] =
     .ok (.ld { imms := [1, 0x234], reg := some ⟨1, 0, 0⟩, qual := some ⟨1, 3, false, 0⟩ } 4 5 1) 5 ∧
   decode [0x9451] = .ok (.st {} 4 5 1) 1 ∧
   decode [0xF3FC, 0xE109, 0xE403, 0xEC0B, 0xA100] =
     .ok (.vecAddi { imms := [0x3FC], reg := some ⟨1, 0, 9⟩, page := some 3, qual := some ⟨0, 0, false, 11⟩ } 1 0) 5 ∧
   decode [0xE406, 0xEC0C, 0xB332] = .ok (.longVexp2 { page := some 6, qual := some ⟨0, 0, false, 12⟩ } 3 3 2) 3 ∧
   decode [0xC450] = .ok (.sendMsg {} 4 5 0) 1 ∧
   decode [0xD600] = .ok (.memSmap {} 6 0) 1) ∧
  (decode [0xF000, 0xF000, 0xF000, 0xF000, 0xF000, 0x8451] = .ill ⟨3, 4, 0xF000⟩ ∧
   decode [0xE100, 0xF001, 0xE100, 0x8451] = .ill ⟨4, 2, 0xE100⟩ ∧
   decode [0xE403, 0x1640] = .ill ⟨5, 0, 0xE403⟩ ∧
   decode [0xEE80, 0x8451] = .ill ⟨6, 0, 0xEE80⟩ ∧
   decode [0xE800, 0x1640] = .ill ⟨6, 0, 0xE800⟩ ∧
   decode [0xD606] = .ill ⟨1, 0, 0xD606⟩ ∧
   illOf ⟨3, 4, 0xF000⟩ = 0x34F000 ∧ illOf ⟨4, 2, 0xE100⟩ = 0x42E100 ∧ illOf ⟨5, 0, 0xE403⟩ = 0x50E403 ∧
   illOf ⟨6, 0, 0xEE80⟩ = 0x60EE80 ∧ illOf ⟨6, 0, 0xE800⟩ = 0x60E800 ∧ illOf ⟨1, 0, 0xD606⟩ = 0x10D606)

/-- R74 to R91, R418: the words of every well-formed base function decode to it, whatever follows them. -/
def Obligations.EncodeDecode : Prop :=
  ∀ (i : Instr) (rest : List Half), isBase i = true → wellFormed i = true → decode (encode i ++ rest) = .ok i (encode i).length

/-- R74 to R91, R418: what decodes is a well-formed base function of one to five words, and no bit of the chain is dropped: its words are those of the
function's encoding, in some order of the prefixes (R82: the order carries no meaning). -/
def Obligations.DecodedIsEncoding : Prop :=
  ∀ (ws : List Half) (i : Instr) (n : Nat), decode ws = .ok i n →
    isBase i = true ∧ wellFormed i = true ∧ 1 ≤ n ∧ n ≤ 5 ∧ (ws.take n).Perm (encode i)

/-! ## Steps -/

/-- R15, R16, R76: with an empty agenda and no turns, a powered package's focal core issues the instruction of the first ready context: where the
words at its pc are a chain, the step is exec of the decoded instruction, where they are none that of an illegal one, in the state in which the
context has its turn, the watchdog has counted (in steps, notes/assumptions/7.md), and the words stay with the core; what an injection that waits or
the debugger's step adds comes after (R415, R417), and without either nothing does. A forwarded read acquires what its item committed, just before the
instruction's effects (R240; notes/assumptions/85.md); one that waits for the primary's acquire stalls. A trap that was held is taken in place of an
issue (R29). R407, R408: where fetch reads a poisoned granule, UE is consumed unless a cause pends. R231, R232: a coupled gang whose members stand at
one address issues what its leader decodes on every member; where one of them stalls, none but those that stall issues, and they wait. The model's own
choices that it rests on: notes/assumptions/3.md, notes/assumptions/63.md, notes/assumptions/71.md. -/
def Obligations.StepRunsDecoded : Prop :=
  (∀ (s u : State) (h : Nat), s.agenda = [] → s.turns = [] → s.pkg.powered = true → wdogDue (countCycle s) = false →
    nextCtx (countCycle s) = some h → ((∀ m t, s.core.gang ≠ .coupled m t) ∨ h ≠ 0) → u = takeTurn h (countCycle s) →
    (∀ c v, (ctx u).heldTrap = some (c, v) → step s = .next (takeTrap c v u)) ∧
    (∀ ws, (ctx u).heldTrap = none → atDeadCode u = false → fetchChain u (asidOf u) (start u) 6 = (ws, none) →
      (chainPoison u (asidOf u) (start u) ws.length = none →
        (∀ i n, decode ws = .ok i n →
          (∀ v t, acquireExport i (fetchedState ws u) = .ok v → exec i v = .next t → step s = .next (concluded u t)) ∧
          (∀ w, acquireExport i (fetchedState ws u) = .error w → step s = .next (concluded u (block .leader (fetchedState ws u))))) ∧
        (∀ e t, decode ws = .ill e → exec (.illegalInstruction e) (fetchedState ws u) = .next t → step s = .next (concluded u t))) ∧
      (∀ pa, chainPoison u (asidOf u) (start u) ws.length = some pa → asyncDue u = none → step s = .next (concluded u (raiseUe pa u))))) ∧
  (∀ s t : State, t.core.injections = [] → t.core.halted = false → concluded s t = t) ∧
  (∀ (i : Instr) (s : State), (preOf i).fwd = none → acquireExport i s = .ok s) ∧
  (∀ (s r v : State) (ms : List Nat) (lead : Nat) (i : Instr) (ws : List Half), s.agenda = [] → s.turns = [] → s.pkg.powered = true →
    r = countCycle s → wdogDue r = false → nextCtx r = some 0 → coupled s s.core.id = true → ms = gangMembers r → lead = ms.headD s.core.id →
    midWay r s.core.id = false → settleGang ms false r = r → fetch (takeTurn 0 (focusOn lead r)) = .ok i ws →
    issueMembers exec lead (.ok i ws) ms r = .next v →
    ((∀ k ∈ ms, stalledAt r v k = false) → condOf (.ok i ws) = none → step s = .next (settleGang ms false v)) ∧
    (∀ k ∈ ms, stalledAt r v k = true → step s = issueMembers exec lead (.ok i ws) (ms.filter (stalledAt r v)) r))

/-- R2, R76, R367: where the core holds no older copy, the fetched chain is what global memory holds at the address, its words little-endian, up to
the first base word. -/
def Obligations.FetchReadsMemory : Prop :=
  ∀ (s : State) (asid va : Nat) (ps : List Half) (w : Half), ps.length ≤ 5 → (∀ x ∈ ps, isPrefix x = true) → isPrefix w = false →
    (∀ j, j ≤ ps.length → fetchable s asid (va + 2 * j) = true ∧ heldWord s asid (va + 2 * j) = none) →
    clusterRead s (clusterOf s.core.id) asid va (2 * (ps.length + 1)) = some (wordBytes (ps ++ [w])) →
    fetchChain s asid va 6 = (ps ++ [w], none)

/-- notes/assumptions/3.md, R16: the model's schedule: the head of the agenda is performed first, also without power; a package without power does
nothing else; then the cores named by turns issue; a cycle in which no context is ready performs the first due step of another agent, or passes. -/
def Obligations.StepOrder : Prop :=
  (∀ (s : State) (e : Instr) (rest : List Instr), s.agenda = e :: rest → step s = exec e { s with agenda := rest }) ∧
  (∀ s : State, s.agenda = [] → s.pkg.powered = false → step s = .fault .powerOff) ∧
  (∀ (s : State) (k : Nat) (rest : List Nat), s.agenda = [] → s.pkg.powered = true → s.turns = k :: rest →
    step s = onCore k { s with turns := rest } coreStep) ∧
  (∀ s : State, s.agenda = [] → s.pkg.powered = true → s.turns = [] → wdogDue (countCycle s) = false → nextCtx (countCycle s) = none →
    step s = match dueEvent (countCycle s) with | some e => exec e (countCycle s) | none => .next (countCycle s))

/-- No instruction and no event stops the machine: exec answers a next state for every one of them, in every state (R9, R15: a trap, a wait and an
instruction's effect are states). R267: the machine stops only when it has no power and nothing is left on its agenda. The model's own choices that it
rests on: notes/assumptions/3.md. -/
def Obligations.GoesOn : Prop :=
  (∀ (i : Instr) (s : State), ∃ t, exec i s = .next t) ∧
  (∀ s : State, (∃ t, step s = .next t) ∨ (step s = .fault .powerOff ∧ s.pkg.powered = false ∧ s.agenda = []))

/-! ## Reset and the invariant -/

/-- R14, R16, R22: the invariant holds at reset. R14, R402, R403, R224: reset leaves no activation and no live context on any core, MG_STATE 0 and the
power cap of 2,400 W; memory lists nothing, and an unlisted byte reads 0 (R22, R340 for the local store; for home memory notes/assumptions/2.md, the
model's choice). The model's own choices that it rests on: notes/assumptions/1.md. -/
def Obligations.Reset : Prop :=
  (State.reset.wf = true) ∧
  ((∀ k, (coreOf State.reset k).id = k ∧ (coreOf State.reset k).act = none ∧ (coreOf State.reset k).ctxs.length = 11 ∧
     (∀ x ∈ (coreOf State.reset k).ctxs, x.live = false) ∧ (coreOf State.reset k).ls = []) ∧
   State.reset.pkg.mgState = 0 ∧ State.reset.pkg.pwrCap = 2400 ∧ State.reset.pkg.powered = true ∧ State.reset.pkg.mem = [] ∧
   (∀ a, memRead [] a = 0#8) ∧ step State.reset = .next State.reset)

/-- R14, R16: from every state that meets the invariant a step leads to one that meets it: every memory keeps its canonical form, every core its
eleven contexts, one of which issued last. -/
def Obligations.StepKeepsWf : Prop :=
  ∀ s t : State, s.wf = true → step s = .next t → t.wf = true

/-! ## Traps -/

/-- R219, R29: a trap waits for the outstanding long results, saves the cause, the value, pc, FLG with LA, REPST and WP in W[0] to W[5] of the trap
workspace, resets FLG and REPST and goes on at TVEC; no other byte and no other context of the core changes. -/
def Obligations.TrapEntry : Prop :=
  ∀ (s t u : State) (code value : Nat), s.wf = true → (ctx s).wp ≠ s.core.twp → trapBusy s = false → code < 2 ^ 64 → value < 2 ^ 64 →
    u = flushLongs s → t = takeTrap code value s →
    readLE t.core.ls s.core.twp.toNat 8 = code ∧
    readLE t.core.ls (s.core.twp.toNat + 8) 8 = value ∧
    readLE t.core.ls (s.core.twp.toNat + 16) 8 = (ctx u).pc.toNat ∧
    readLE t.core.ls (s.core.twp.toNat + 24) 8 =
      ((ctx u).flg &&& 0xFFFFFFFFF0FFFFFF#64 ||| (BitVec.ofNat 64 (laOf (ctx s)) <<< 24)).toNat ∧
    readLE t.core.ls (s.core.twp.toNat + 32) 8 = (ctx u).repst.toNat ∧
    readLE t.core.ls (s.core.twp.toNat + 40) 8 = (ctx u).wp.toNat ∧
    ctx t = { ctx u with
      wp := s.core.twp
      flg := 0x80C00
      repst := 0
      pc := s.core.tvec
      inTrap := true
      outer := (ctx u).outer + b2n (ctx u).inTrap
      heldTrap := none
      wait := .none
      stage := 0
      ops := []
      acquired := false
      longs := [] } ∧
    (∀ a, a < s.core.twp.toNat ∨ s.core.twp.toNat + 48 ≤ a → memRead t.core.ls a = memRead u.core.ls a) ∧
    (∀ h, h ≠ s.core.cur → ctxAt t h = ctxAt u h)

/-- R219, R216: RENNET enters as a trap does, at the converter instead of TVEC, and W[13] holds the version's GP. R29, R226, R421: a trap of a context
in the trap workspace is an activation fault 0x80: the activation ends in every context, an error record names instance, core, old pc and cause, and
Klogar's fault message of type 1,023 with the old pc and the cause follows. A secondary, which meets the trap that its primary meets, stalls for the
primary's (R321). R29: a trap raised while another live context of the core is in the trap workspace is held at its instruction, with its cause and
value; nothing else happens. -/
def Obligations.OtherTraps : Prop :=
  (∀ (s t : State) (h conv gp : Nat), s.wf = true → (ctx s).wp ≠ s.core.twp → trapBusy s = false → gp < 2 ^ 64 → t = takeRennet h conv gp s →
     (ctx t).pc = BitVec.ofNat 64 conv ∧ (ctx t).wp = s.core.twp ∧ (ctx t).inTrap = true ∧
     readLE t.core.ls s.core.twp.toNat 8 = 14 ∧ readLE t.core.ls (s.core.twp.toNat + 8) 8 = h % 2 ^ 64 ∧
     readLE t.core.ls (s.core.twp.toNat + 8 * 13) 8 = gp) ∧
  ((∀ (s : State) (code value : Nat), secondary s = true → (ctx s).wp = s.core.twp → takeTrap code value s = block .leader s) ∧
   (∀ (s t : State) (code value : Nat) (a : Act), s.core.act = some a → a.redm = 0 → (ctx s).wp = s.core.twp → t = takeTrap code value s →
     t.core.act = none ∧ (∀ h, (ctxAt t h).live = false) ∧
     (∃ r, t.pkg.errs.getLast? = some r ∧ r.inst = a.inst ∧ r.core = s.core.id ∧ r.cause = 7 ∧ r.detail = (ctx s).pc.toNat) ∧
     (∃ f, t.pkg.msgs.getLast? = some f ∧ f.dest = s.core.id ∧ hType f.msg.hdr = 1023 ∧ f.msg.klogar = true ∧ f.msg.t0 = (ctx s).pc ∧
       f.msg.t1.toNat = s.core.id % 2 ^ 14 + 0x80 * 2 ^ 32))) ∧
  (∀ (s : State) (code value : Nat), s.wf = true → (ctx s).wp ≠ s.core.twp → trapBusy s = true →
     ∃ t, takeTrap code value s = t ∧ onlyCtx s t ∧ ctx t = { ctx s with heldTrap := some (code, value), wait := .held })

/-- R107, R29: RETT takes pc, FLG, REPST and WP from W[2] to W[5], ends the handler's trap handling (a handler that it interrupted goes on, in trap
handling: R219) and releases the contexts held at a trap; nothing else changes. R219, R107: a handler that returns at once gives the interrupted
context back its pc, WP, flags and bellows state (without the bits that a write ignores), in trap handling only where it was. -/
def Obligations.Returns : Prop :=
  (∀ s : State, s.plain → (ctx s).wp = s.core.twp → usable s [2, 3, 4, 5] [] → flgLegal (regW s 3) = true → checkWp s (regW s 5) = .ok () →
     ∃ t, exec .sysRett s = .next t ∧ t = { s with core := { s.core with ctxs := t.core.ctxs } } ∧
       ctx t = { ctx s with
         pc := BitVec.ofNat 64 (regW s 2)
         flg := BitVec.ofNat 64 (regW s 3) &&& 0x1FFF1F
         repst := BitVec.ofNat 64 (regW s 4) &&& 0xFFFFFFFF7FFFFFFE
         wp := BitVec.ofNat 64 (regW s 5)
         inTrap := (ctx s).outer != 0
         outer := (ctx s).outer - 1
         wait := .none
         stage := 0 } ∧
       (∀ h, h ≠ s.core.cur → ctxAt t h = if (ctxAt s h).wait = .held then { ctxAt s h with wait := .none } else ctxAt s h)) ∧
  (∀ (s t : State) (code value : Nat), s.plain → (ctx s).wp ≠ s.core.twp → trapBusy s = false → code < 2 ^ 64 → value < 2 ^ 64 →
     flgLegal (ctx s).flg.toNat = true → checkWp s (ctx s).wp.toNat = .ok () → t = takeTrap code value s → usable t [2, 3, 4, 5] [] →
     ∃ v, exec .sysRett t = .next v ∧
       ctx v = { ctx s with
         flg := (ctx s).flg &&& 0x1FFF1F
         repst := (ctx s).repst &&& 0xFFFFFFFF7FFFFFFE
         inTrap := (ctx s).inTrap || (ctx s).outer != 0
         outer := (ctx s).outer + b2n (ctx s).inTrap - 1
         heldTrap := none
         wait := .none
         stage := 0
         ops := []
         acquired := false })

/-- R105: `sys.brk y` raises BRK with trap value y; when the debug port has enabled break capture the core halts before the trap is taken, as a debug
halt does. (R33: BRK waits for the outstanding long results, and their open windows count it.) -/
def Obligations.BrkTraps : Prop :=
  ∀ (c : BitVec 4) (s : State),
    (s.core.breakCapture = false → ∀ u, u = flushLongs s →
      exec (.sysBrk c) s = .next (takeTrap 9 c.toNat (if trapBusy u then u else tick u))) ∧
    (s.core.breakCapture = true → clearing s.core = true → exec (.sysBrk c) s = .next s) ∧
    (s.core.breakCapture = true → clearing s.core = false → ∃ t, exec (.sysBrk c) s = .next t ∧ t.core.halted = true ∧ (ctx t).pc = (ctx s).pc ∧
      (ctx t).inTrap = (ctx s).inTrap ∧ nextCtx t = none)

/-- R91, R92: a chain that decoding rejects raises ILL, its value REASON in [23:20], INDEX in [18:16] and WORD in [15:0]. R9, R92, R107, R106, R123,
R127, R132, R183, R222: where instructions trap, with their causes and values: RETT outside the trap workspace, a service that Klogar does not serve,
a zero divisor, a misaligned jump, a misaligned counter, a load outside the local store. R23, R132, R133, R134, R222: where accesses trap or wait:
outside the local store, in the hardware region without privilege, a store there but for SNAPSEL with it too, misaligned; bytes of an MXU command, an
invalid sector; a non-temporal store outside every window. The model's own choices that it rests on: notes/assumptions/9.md, notes/assumptions/10.md.
-/
def Obligations.Traps : Prop :=
  (∀ (e : Ill) (s : State), ∃ v, exec (.illegalInstruction e) s = .next (takeTrap 1 v s) ∧
     bits v 23 20 = e.reason.toNat ∧ bit v 19 = false ∧ bits v 18 16 = e.index.toNat ∧ bits v 15 0 = e.word.toNat ∧ v < 2 ^ 24) ∧
  ((∀ s : State, s.plain → (ctx s).wp ≠ s.core.twp → exec .sysRett s = .next (takeTrap 1 0x800060 s)) ∧
   (∀ (c : BitVec 4) (s : State), s.plain → 9 ≤ c.toNat → exec (.sysSvc c) s = .next (takeTrap 10 c.toNat s)) ∧
   (∀ (p : Pre) (a b l : BitVec 4) (s : State) (x : Nat), (ctx s).longs = [] →
     ∀ i ∈ [Instr.longDiv p a b l, .longDivn p a b l, .longRem p a b l, .longRemn p a b l],
       twoSrc i s p a b = .ok (x, 0) → exec i s = .next (takeTrap 7 0 s)) ∧
   (∀ (p : Pre) (b : BitVec 4) (s : State) (x : Nat), x % 2 = 1 → oneSrcNoDst (.xferJr p b) s p b = .ok x →
     exec (.xferJr p b) s = .next (takeTrap 3 x s)) ∧
   (∀ (p : Pre) (a b l : BitVec 4) (s : State) (va : Nat), (ctx s).longs = [] → va % 8 ≠ 0 → oneSrc (.longCread p a b l) s p a b = .ok va →
     exec (.longCread p a b l) s = .next (takeTrap 3 va s)) ∧
   (∀ (p : Pre) (a b l : BitVec 4) (s : State) (x : Nat), (ctx s).longs = [] → (ctx s).stage = 0 → oneSrc (.ld p a b l) s p a b = .ok x →
     0x1FFFF < loadEa p x + etWidth (memEt p) / 8 - 1 → exec (.ld p a b l) s = .next (takeTrap 4 (loadEa p x) s))) ∧
  (∀ (p : Pre) (a b l : BitVec 4) (s : State) (x ea n : Nat), s.plain → begins s → oneSrc (.ld p a b l) s p a b = .ok x → ea = loadEa p x → n = etWidth (memEt p) / 8 →
     memEt p ≤ 13 →
     (0x1FFFF < ea + n - 1 → exec (.ld p a b l) s = .next (takeTrap 4 ea s)) ∧
     (0x1F000 ≤ ea → (ctx s).priv = false → exec (.ld p a b l) s = .next (takeTrap 4 ea s)) ∧
     (ea < 0x1F000 → ea % n ≠ 0 → exec (.ld p a b l) s = .next (takeTrap 3 ea s)) ∧
     (ea < 0x1F000 → ea % n = 0 → mxuNames s.core ea n = true → exec (.ld p a b l) s = .next (block (.mxuBytes ea n) s)) ∧
     (ea < 0x1F000 → ea % n = 0 → mxuNames s.core ea n = false → sectorValid s.core ea = false →
       exec (.ld p a b l) s = .next (block (.fill ea) s)) ∧
     (∀ f e, names s [wA p a, wB p b] [] = .ok () → forwarded (.st p a b l) s (some (wB p b)) none = .ok f →
       reads s ([wA p a] ++ unreplaced f [wB p b] []) [] = .ok () → e = storeEa p l (srcB s f (wB p b)) → e % n = 0 →
       (e < 0x1F000 → memNt p = true → mxuNames s.core e n = false → winAt s.core e = none → exec (.st p a b l) s = .next (takeTrap 4 e s)) ∧
       (0x1F000 ≤ e → e < 0x1FE40 ∨ 0x1FE80 ≤ e → exec (.st p a b l) s = .next (takeTrap 4 e s))))

/-- R220, R221: outside trap handling the pending cause with the lowest code takes the place of the control context's next instruction, whose address
is the old pc, and no longer pends; in trap handling it stays pending. Here the instruction is NOP. A UE that the MXU consumed in the local store may
be repaired by a rollback instead (R408). R197, R221: a cause that becomes pending while the control context waits in CWAIT cancels the wait and is
taken with its address as old pc. R197, R220, R226, R241, R321: the watchdog of an activation with a limit makes WDOG pending at its first expiry, and
is an activation fault at a second one, or in trap handling; below the limit it does nothing. The model's own choices that it rests on:
notes/assumptions/19.md, notes/assumptions/54.md. -/
def Obligations.AsyncTraps : Prop :=
  ((∀ (s : State) (a : Act) (c : Cause), s.core.cur = 0 → (ctx s).inTrap = false → (ctx s).stage = 0 → s.core.act = some a → a.redm = 0 →
     c ∈ a.pending → (∀ d ∈ a.pending, c.code < d.code ∨ d = c) →
     (c.code = 21 → c.value < 0xFF00000000000000) →
     exec .sysNop s = .next (takeTrap c.code c.value { s with core := { s.core with act := some { a with pending := removeCause c a.pending } } })) ∧
   (∀ s : State, s.plain → (ctx s).inTrap = true → goesTo .sysNop (nextPc {} s) s)) ∧
  (∀ (s : State) (a : Act) (c : Cause) (va th : Nat), s.core.halted = false → (ctxAt s 0).live = true → (ctxAt s 0).wait = .cwait va th →
     (ctxAt s 0).inTrap = false → (ctxAt s 0).stage = 0 → s.core.act = some a → a.redm = 0 → a.st = .running → a.pending = [c] →
     (c.code = 21 → c.value < 0xFF00000000000000) → (∀ h, h < 11 → h ≠ 0 → (ctxAt s h).wp ≠ s.core.twp) →
     ∃ t, exec (.asyncTrap s.core.id) s = .next t ∧
       t = updCore (fun x => { x with cur := s.core.cur })
         (takeTrap c.code c.value { s with core := { s.core with
           cur := 0
           act := some { a with pending := [] } } })) ∧
  (∀ (s : State) (a : Act), redundant s = false → s.core.act = some a → s.core.halted = false → (∀ j, a.st ≠ .preempted j) → a.actlim ≠ 0 →
     (a.actlim ≤ a.wdogCount → a.wdogOnce = false → (ctxAt s 0).inTrap = false →
       exec (.wdog s.core.id) s = .next { s with core := { s.core with act := some { a with
         wdogCount := 0
         wdogOnce := true
         pending := a.pending ++ [{ code := 11, value := a.actlim }] } } }) ∧
     (a.actlim ≤ a.wdogCount → a.wdogOnce = true → ∃ t f, exec (.wdog s.core.id) s = .next t ∧ t.core.act = none ∧ (∀ h, (ctxAt t h).live = false) ∧
       t.pkg.msgs = s.pkg.msgs ++ [f] ∧ hType f.msg.hdr = 1023 ∧ f.msg.t1.toNat / 2 ^ 32 = 0x82) ∧
     (a.actlim ≤ a.wdogCount → a.wdogOnce = false → (ctxAt s 0).inTrap = true → ∃ t f, exec (.wdog s.core.id) s = .next t ∧ t.core.act = none ∧
       t.pkg.msgs = s.pkg.msgs ++ [f] ∧ hType f.msg.hdr = 1023 ∧ f.msg.t1.toNat / 2 ^ 32 = 0x81) ∧
     (a.wdogCount < a.actlim → exec (.wdog s.core.id) s = .next s))

/-! ## Registers and operands -/

/-- R17, R18, R2: a register is the local store bytes at WP: a write of W[n] or V[n] is read back there, byte for byte, and changes no byte outside;
contexts with windows over the same bytes share the register. -/
def Obligations.RegistersAreMemory : Prop :=
  ∀ s : State, Memory.wf s.core.ls = true → (ctx s).longs = [] →
    (∀ n x, regW (setW n x s) n = x % 2 ^ 64) ∧
    (∀ n x, n < 64 → readLE (setW n x s).core.ls ((ctx s).wp.toNat + 8 * n) 8 = x % 2 ^ 64) ∧
    (∀ n m x, n ≠ m → regW (setW n x s) m = regW s m) ∧
    (∀ n m x, n < 64 → regV (setW n x s) m = regV s m) ∧
    (∀ n bs, bs.length = 64 → regV (setV n bs s) n = bs) ∧
    (∀ n (bs : List Byte) j, bs.length = 64 → j < 64 → memRead (setV n bs s).core.ls ((ctx s).wp.toNat + 512 + 64 * n + j) = bs.getD j 0) ∧
    (∀ n m bs, bs.length = 64 → n ≠ m → regV (setV n bs s) m = regV s m) ∧
    (∀ n m h x, (ctxAt s h).longs = [] → (ctxAt s h).wp.toNat + 8 * m = wAddr s n →
      readLE (setW n x s).core.ls ((ctxAt s h).wp.toNat + 8 * m) 8 = x % 2 ^ 64)

/-- R19: an instruction that names a register outside the window raises LSPROT with the kind and the number: here W[a] as destination and V[a] as the
source of a store. R100, R114, R181, R79, R85: the sources of an instruction without PFX.F whose registers are usable: with PFX.R x is W[b] and y is
W[c], else x is W[a] and y is W[b]; a one-source function reads W[b]. High parts of PFX.R give the registers 16 to 63. R87, R240: a PFX.F source of a
stream item: export n at distance k is the stage's default before the first item, the value of a VALID entry, a stall on an EMPTY one and FWDPOISON on
a POISON one; outside a stream item it is ILL with REASON 9. R83: an immediate is its PFX.I payloads, in chain order, and the base field, read with
its sign from the width of all of them. The model's own choices that it rests on: notes/assumptions/9.md. -/
def Obligations.OperandForms : Prop :=
  ((∀ (p : Pre) (a : BitVec 4) (i : BitVec 8) (s : State), (windowOf s).1 ≤ wA p a →
     exec (.movi p a i) s = .next (takeTrap 4 (0x8000000000000000 + wA p a) s)) ∧
   (∀ (p : Pre) (a b l : BitVec 4) (s : State), wB p b < (windowOf s).1 → (windowOf s).2 ≤ vA s p a →
     exec (.stV p a b l) s = .next (takeTrap 4 (0x8000000000000000 + 2 ^ 8 + vA s p a) s)) ∧
   (∀ (ws vs : List Nat) (s : State), (∀ n ∈ ws, n < (windowOf s).1) → (∀ n ∈ vs, n < (windowOf s).2) → s.core.wins.all (· == none) = true →
     names s ws vs = .ok ())) ∧
  (∀ (i : Instr) (s : State) (p : Pre) (a b : BitVec 4), (preOf i).fwd = none →
     (p.reg = none → usable s [a.toNat, b.toNat] [] → reads s [b.toNat] [] = .ok () →
       twoSrc i s p a b = .ok (regW s a.toNat, regW s b.toNat) ∧ twoSrcNoDst i s p a b = .ok (regW s a.toNat, regW s b.toNat) ∧
       oneSrc i s p a b = .ok (regW s b.toNat)) ∧
     (∀ x : RegExt, p.reg = some x →
       names s [a.toNat + 16 * x.aHi.toNat, b.toNat + 16 * x.bHi.toNat, x.c.toNat] [] = .ok () →
       reads s [b.toNat + 16 * x.bHi.toNat, x.c.toNat] [] = .ok () →
       twoSrc i s p a b = .ok (regW s (b.toNat + 16 * x.bHi.toNat), regW s x.c.toNat)) ∧
     (∀ x : RegExt, p.reg = some x → usable s [b.toNat + 16 * x.bHi.toNat, x.c.toNat] [] →
       twoSrcNoDst i s p a b = .ok (regW s (b.toNat + 16 * x.bHi.toNat), regW s x.c.toNat))) ∧
  (∀ (i : Instr) (s : State) (f : Fwd) (n : Nat) (a : Act), (preOf i).fwd = some f → f.onC = false → s.core.act = some a →
     (a.strm = 0xFFFF → forwarded i s (some n) none = .error (.trap 1 (illValue 9 i))) ∧
     (∀ g j, a.strm ≠ 0xFFFF → a.stage = some g → f.k.toNat ≤ g.k → g.exports.findIdx? (· == n) = some j →
       (a.item < f.k.toNat → forwarded i s (some n) none = .ok (some (false, (g.defaults.getD j 0).toNat))) ∧
       (f.k.toNat ≤ a.item → ∀ e, s.core.fwd.getD ((a.item - f.k.toNat) % 32) .empty = e →
         (e = .empty → forwarded i s (some n) none = .error (.wait (.forward f.k.toNat n))) ∧
         (∀ vs, e = .valid (a.item - f.k.toNat) a.strm vs → forwarded i s (some n) none = .ok (some (false, (vs.getD j 0).toNat))) ∧
         (e = .poison (a.item - f.k.toNat) a.strm → forwarded i s (some n) none = .error (.trap 20 (f.k.toNat * 2 ^ 8 + n)))))) ∧
  ((∀ (p : Pre) (i : BitVec 4), p.imms = [] → immS64 p 4 i.toNat = (i.signExtend 64).toNat) ∧
   (∀ (p : Pre) (i : BitVec 8), p.imms = [] → immS64 p 8 i.toNat = (i.signExtend 64).toNat) ∧
   (∀ (p : Pre) (x : BitVec 12) (i : BitVec 4), p.imms = [x] → immS64 p 4 i.toNat = ((x ++ i).signExtend 64).toNat ∧ immBits p 4 i.toNat = (x ++ i).toNat) ∧
   (∀ (p : Pre) (x y : BitVec 12) (i : BitVec 4), p.imms = [x, y] → immS64 p 4 i.toNat = ((x ++ y ++ i).signExtend 64).toNat) ∧
   (∀ (p : Pre) (x y z w : BitVec 12) (i : BitVec 8), p.imms = [x, y, z, w] → immS64 p 8 i.toNat = ((x ++ y ++ z ++ w ++ i).signExtend 64).toNat) ∧
   (∀ p : Pre, p.imms = [] → immS64 p 0 0 = 0))

/-! ## Scalar instructions -/

/-- R112, R100, R114: the fifteen ALU functions with a result write W[d] with the value of the table, computed from x and y (a forwarded value among
them where the chain says so), and change nothing else; the next instruction follows. R115, R83: the ALUI functions with a result write W[a] computed
from W[a] and the immediate, read with its sign, but unsigned for ANDI, ORI and XORI; LDA adds it to the address of the chain. Nothing else changes.
R117: `ldap` sets W[a] to the 4 KiB page of the chain's address and the immediate times 4,096. Nothing else changes. R113, R114: CMP, CMPI and TST set
Z, N, C, V and U and no other bit of FLG: of x minus y with C for no borrow and V for a signed overflow; of the common bits of x and y, with C and V
0. Nothing else changes. R126: MOV copies W[b], CLZ counts its leading zeros, POPC its ones, BSWAP reverses its bytes. Nothing else changes. -/
def Obligations.AluResults : Prop :=
  (∀ (p : Pre) (a b : BitVec 4) (s : State) (x y : Word), s.plain →
     ∀ e ∈ ([(Instr.aluAdd p a b, x + y), (.aluSub p a b, x - y), (.aluAnd p a b, x &&& y), (.aluOr p a b, x ||| y),
         (.aluXor p a b, x ^^^ y), (.aluShl p a b, x <<< y.toNat), (.aluShr p a b, x >>> y.toNat), (.aluSar p a b, x.sshiftRight y.toNat),
         (.aluMul p a b, x * y), (.aluMulh p a b, (x.signExtend 128 * y.signExtend 128).extractLsb' 64 64),
         (.aluMulhn p a b, (x.setWidth 128 * y.setWidth 128).extractLsb' 64 64), (.aluMin p a b, if x.sle y then x else y),
         (.aluMax p a b, if x.sle y then y else x), (.aluMinn p a b, if x.ule y then x else y),
         (.aluMaxn p a b, if x.ule y then y else x)] : List (Instr × Word)),
       twoSrc e.1 s p a b = .ok (x.toNat, y.toNat) → givesReg e.1 p (wA p a) e.2 s) ∧
  (∀ (p : Pre) (a i : BitVec 4) (s : State) (x k u : Word), s.plain →
     usable s [wA p a] [] → x = BitVec.ofNat 64 (regW s (wA p a)) → k = BitVec.ofNat 64 (immS64 p 4 i.toNat) →
     u = BitVec.ofNat 64 (immBits p 4 i.toNat) →
     ∀ e ∈ ([(Instr.aluiAddi p a i, x + k), (.aluiAndi p a i, x &&& u), (.aluiOri p a i, x ||| u), (.aluiXori p a i, x ^^^ u),
         (.aluiShli p a i, x <<< k.toNat), (.aluiShri p a i, x >>> k.toNat), (.aluiSari p a i, x.sshiftRight k.toNat),
         (.aluiMuli p a i, x * k), (.aluiMini p a i, if x.sle k then x else k), (.aluiMaxi p a i, if x.sle k then k else x),
         (.aluiLda p a i, (ctx s).pc + k)] : List (Instr × Word)),
       givesReg e.1 p (wA p a) e.2 s) ∧
  (∀ (p : Pre) (a : BitVec 4) (i : BitVec 8) (s : State), s.plain → names s [wA p a] [] = .ok () →
     givesReg (.ldap p a i) p (wA p a)
       (((ctx s).pc &&& 0xFFFFFFFFFFFFF000#64) + (BitVec.ofNat 64 (immS64 p 8 i.toNat) <<< 12)) s) ∧
  (∀ (p : Pre) (a b : BitVec 4) (s : State) (x y : Word), s.plain →
     (twoSrcNoDst (.aluCmp p a b) s p a b = .ok (x.toNat, y.toNat) →
       givesFlags (.aluCmp p a b) p (x == y) (x - y).msb (y.ule x) (x.ssubOverflow y) false s) ∧
     (usable s [wA p a] [] → x.toNat = regW s (wA p a) → y.toNat = immS64 p 4 b.toNat →
       givesFlags (.aluiCmpi p a b) p (x == y) (x - y).msb (y.ule x) (x.ssubOverflow y) false s) ∧
     (twoSrcNoDst (.xferTst p a b) s p a b = .ok (x.toNat, y.toNat) →
       givesFlags (.xferTst p a b) p (x &&& y == 0) (x &&& y).msb false false false s)) ∧
  (∀ (p : Pre) (a b : BitVec 4) (s : State) (x : Word), s.plain →
     ∀ e ∈ ([(Instr.xferMov p a b, x), (.xferClz p a b, BitVec.ofNat 64 (if x = 0 then 64 else 63 - x.toNat.log2)),
         (.xferPopc p a b, BitVec.ofNat 64 ((List.range 64).countP (fun n => x.getLsbD n))),
         (.xferBswap p a b, x.extractLsb' 0 8 ++ x.extractLsb' 8 8 ++ x.extractLsb' 16 8 ++ x.extractLsb' 24 8 ++ x.extractLsb' 32 8 ++
           x.extractLsb' 40 8 ++ x.extractLsb' 48 8 ++ x.extractLsb' 56 8)] : List (Instr × Word)),
       oneSrc e.1 s p a b = .ok x.toNat → givesReg e.1 p (wA p a) e.2 s)

/-- R116: `movi wa, imm` sets W[a] to the immediate, read signed by R83 from 8 to 56 bits. Nothing else changes. -/
def Obligations.MoviResult : Prop :=
  ∀ (p : Pre) (a : BitVec 4) (i : BitVec 8) (s : State), s.plain → names s [wA p a] [] = .ok () →
    givesReg (.movi p a i) p (wA p a) (BitVec.ofInt 64 (sv (immBits p 8 i.toNat) (12 * p.imms.length + 8))) s

/-- R124, R125: a branch whose condition holds on the flags goes on at the chain's address plus twice the displacement, another one at the next
instruction. Nothing else changes. R125, R127, R213: CALL and CALLR leave the address of the next instruction in W[12], JR and RET do not; each goes
on at its target, which a register form has even. QCALL goes on at an entry of the newest version's table, with W[12] the link and W[13] that
version's GP. -/
def Obligations.ControlFlow : Prop :=
  (∀ (p : Pre) (d : BitVec 8) (s : State) (z n c v u : Bool), s.plain → z = (ctx s).flg.getLsbD 0 → n = (ctx s).flg.getLsbD 1 →
     c = (ctx s).flg.getLsbD 2 → v = (ctx s).flg.getLsbD 3 → u = (ctx s).flg.getLsbD 4 →
     ∀ e ∈ ([(Instr.brcB p d, true), (.brcEq p d, z), (.brcNe p d, !z), (.brcLt p d, n != v), (.brcGe p d, n == v),
         (.brcGt p d, !z && n == v), (.brcLe p d, z || n != v), (.brcLo p d, !c), (.brcHs p d, c), (.brcHi p d, c && !z),
         (.brcLs p d, !c || z), (.brcUn p d, u), (.brcOr p d, !u), (.brcVs p d, v), (.brcVc p d, !v)] : List (Instr × Bool)),
       goesTo e.1 (if e.2 then ((ctx s).pc + 2 * BitVec.ofInt 64 (immS p 8 d.toNat)).toNat else nextPc p s) s) ∧
  (∀ (p : Pre) (b : BitVec 4) (s : State), s.plain →
     (∀ d : BitVec 8, names s [12] [] = .ok () →
       givesRegAt (.brcCall p d) ((ctx s).pc + 2 * BitVec.ofInt 64 (immS p 8 d.toNat)).toNat 12 (BitVec.ofNat 64 (nextPc p s)) s) ∧
     (∀ x, x % 2 = 0 → oneSrcNoDst (.xferJr p b) s p b = .ok x → goesTo (.xferJr p b) x s) ∧
     (∀ x, x % 2 = 0 → oneSrcNoDst (.xferCallr p b) s p b = .ok x → names s [12] [] = .ok () →
       givesRegAt (.xferCallr p b) x 12 (BitVec.ofNat 64 (nextPc p s)) s) ∧
     (p.fwd = none → usable s [12] [] → regW s 12 % 2 = 0 → goesTo (.xferRet p) (regW s 12) s) ∧
     (∀ x v, oneSrcNoDst (.xferQcall p b) s p b = .ok x → names s [12, 13] [] = .ok () → newestVersion s = some v → x < v.entries.length → x < 2 ^ 16 →
       ∃ t u, exec (.xferQcall p b) s = .next t ∧ readLE t.core.ls (wAddr s 12) 8 = nextPc p s ∧ readLE t.core.ls (wAddr s 13) 8 = v.gp % 2 ^ 64 ∧
         onlyBytes (wAddr s 12) 8 s u ∧ onlyBytes (wAddr s 13) 8 u t ∧ standsAt (v.entries.getD x 0) s t))

/-- R110, R38: REP outside a replay with a count that is not 0 starts a replay of l + 1 chains from the next instruction, with its stride and its
count in REPST for a PFX.I form and in W[15] else; a count of 0 goes on after the body. Nothing else changes. R111, R39, R40, R101: in a replay the
body goes on with its next instruction; after its last one, where the count in ICOUNT is more than 1, it begins again with the offset advanced by the
stride, and else the replay is over; vector numbers are staggered by the offset; a taken branch ends the replay. Here the body instruction is NOP, the
count in REPST. R111, R133, R137, R407: where the count is in W[15], the end of a pass counts it down, and only 1 ends the replay; a W[15] whose
sector is not filled keeps the last body instruction waiting, and a poisoned one consumes UE there. The body instruction is NOP. The model's own
choices that it rests on: notes/assumptions/11.md. -/
def Obligations.Bellows : Prop :=
  (∀ (p : Pre) (l y : BitVec 4) (s : State) (e cnt : Nat), s.plain → usable s [15] [] → p.imms.length ≤ 3 →
     cnt = (if p.imms = [] then regW s 15 else immBits p 0 0) → (p.imms ≠ [] → cnt ≤ 0xFFFFFFF) →
     skipChains s (asidOf s) (l.toNat + 1) (nextPc p s) = .ok e → nextPc p s / 2 ^ 17 = (e - 2) / 2 ^ 17 →
     (cnt = 0 → goesTo (.sysRep p l y) e s) ∧
     (cnt ≠ 0 → ∃ t r, exec (.sysRep p l y) s = .next t ∧ onlyCtx s t ∧
       ctx t = { (ctx s).wentTo (nextPc p s) with repst := r } ∧
       repActive r.toNat = true ∧ repStart r.toNat = nextPc p s % 2 ^ 17 ∧ repLen r.toNat = l.toNat ∧ repStride r.toNat = y.toNat ∧
       repOffset r.toNat = 0 ∧ repIdx r.toNat = 0 ∧ repCsrc r.toNat = !p.imms.isEmpty ∧ repIcount r.toNat = (if p.imms = [] then 0 else cnt))) ∧
  (∀ (s : State) (r : Nat), s.wf = true → asyncDue s = none → (ctx s).longs = [] → (ctx s).repst.toNat = r → repActive r = true → repCsrc r = true →
     (repIdx r < repLen r → ∃ t, exec .sysNop s = .next t ∧ onlyCtx s t ∧
       ctx t = { (ctx s).wentTo (nextPc {} s) with repst := BitVec.ofNat 64 (r + 2 ^ 32) }) ∧
     (repLen r ≤ repIdx r → 1 < repIcount r → ∃ t, exec .sysNop s = .next t ∧ onlyCtx s t ∧
       (ctx t).pc.toNat = start s / 2 ^ 17 * 2 ^ 17 + repStart r ∧ repIdx (ctx t).repst.toNat = 0 ∧ repIcount (ctx t).repst.toNat = repIcount r - 1 ∧
       repOffset (ctx t).repst.toNat = (repOffset r + repStride r) % 16 ∧ repActive (ctx t).repst.toNat = true ∧
       repStart (ctx t).repst.toNat = repStart r ∧ repLen (ctx t).repst.toNat = repLen r ∧ repStride (ctx t).repst.toNat = repStride r) ∧
     (repLen r ≤ repIdx r → repIcount r = 1 → ∃ t, exec .sysNop s = .next t ∧ onlyCtx s t ∧ (ctx t).repst = 0 ∧
       (ctx t).pc = BitVec.ofNat 64 (nextPc {} s)) ∧
     (∀ (a : BitVec 4), vA s {} a = (a.toNat % 8 + repOffset r) % 16) ∧
     (∀ d : BitVec 8, ∃ t, exec (.brcB {} d) s = .next t ∧ onlyCtx s t ∧ repActive (ctx t).repst.toNat = false ∧
       (ctx t).pc = (ctx s).pc + 2 * BitVec.ofInt 64 (immS {} 8 d.toNat))) ∧
  (∀ (s : State) (r : Nat), s.wf = true → asyncDue s = none → (ctx s).longs = [] → (ctx s).repst.toNat = r → repActive r = true → repCsrc r = false →
     repLen r = repIdx r →
     (∀ a, passStall s = some (.fill a) → exec .sysNop s = .next (block (.fill a) s)) ∧
     (∀ a, passStall s = some (.count a) → exec .sysNop s = .next (takeUe a s)) ∧
     (needsFill s.core [wAddr s 15] = none → poisonAt s.core (wAddr s 15) 8 = none → passStall s = none) ∧
     (passStall s = none → regW s 15 ≠ 1 → ∃ t, exec .sysNop s = .next t ∧ onlyBytes (wAddr s 15) 8 s t ∧
       readLE t.core.ls (wAddr s 15) 8 = (regW s 15 + (2 ^ 64 - 1)) % 2 ^ 64 ∧ (ctx t).pc.toNat = start s / 2 ^ 17 * 2 ^ 17 + repStart r ∧
       repActive (ctx t).repst.toNat = true ∧ repCsrc (ctx t).repst.toNat = false ∧ repIdx (ctx t).repst.toNat = 0 ∧
       repOffset (ctx t).repst.toNat = (repOffset r + repStride r) % 16 ∧ repStart (ctx t).repst.toNat = repStart r ∧
       repLen (ctx t).repst.toNat = repLen r ∧ repStride (ctx t).repst.toNat = repStride r) ∧
     (passStall s = none → regW s 15 = 1 → ∃ t, exec .sysNop s = .next t ∧ onlyBytes (wAddr s 15) 8 s t ∧ readLE t.core.ls (wAddr s 15) 8 = 0 ∧
       (ctx t).repst = 0 ∧ (ctx t).pc = BitVec.ofNat 64 (nextPc {} s)))

/-! ## Special registers -/

/-- R27, R128: MFS reads the 28 system registers, those of an activation with their values without one: the pc of the reading instruction, WP, FLG
with LA 0 (no long result is outstanding), …; nothing else changes. Leader-sourced ones in single mode. R27: MFS of TIME reads the package time, which
some nanoseconds have passed to reach, and MFS of RAND 64 random bits: both values are free; nothing but the time and the counter of free values
changes beside W[a]. A number from 28 on is ILL with REASON 8. R301: in PAIR and TRIAD modes the primary reads a leader-sourced register and records
the value; a secondary takes the value the primary read at the same place of its log, or waits for it. Here ACT. The model's own choices that it rests
on: notes/assumptions/4.md, notes/assumptions/28.md. -/
def Obligations.SystemReads : Prop :=
  (∀ (p : Pre) (a b : BitVec 4) (s : State), s.plain → p.fwd = none → names s [wA p a] [] = .ok () → redundant s = false →
     ∀ e ∈ ([(0, (ctx s).pc), (1, (ctx s).wp), (2, (ctx s).flg &&& 0xFFFFFFFFF0FFFFFF), (3, BitVec.ofNat 64 (match s.core.act with | some x => x.item | none => 0)),
         (4, BitVec.ofNat 64 s.core.id), (7, BitVec.ofNat 64 s.core.cur), (8, s.core.actCount), (9, (ctx s).modv.setWidth 64),
         (10, BitVec.ofNat 64 (match s.core.act with | some x => x.strm | none => 0xFFFF)), (11, (s.core.chans.getD 0 {}).chwp),
         (12, (s.core.chans.getD 1 {}).chwp), (13, (s.core.chans.getD 2 {}).chwp), (14, (s.core.chans.getD 3 {}).chwp), (15, s.core.tvec),
         (16, s.core.twp), (17, (ctx s).repst), (18, s.core.sleep), (19, BitVec.ofNat 64 (mstat s.core)),
         (20, BitVec.ofNat 64 (s.core.inbound.length % 128 + min s.core.spill.length 0xFFFF * 2 ^ 16)),
         (21, BitVec.ofNat 64 (match s.core.act with | some x => x.redm | none => 0)),
         (22, BitVec.ofNat 64 (match s.core.act with | some x => x.rplc | none => 0)), (23, s.core.qstat), (24, s.core.fpst),
         (25, BitVec.ofNat 64 (coreInst s).gen), (26, BitVec.ofNat 64 (actInst s)),
         (27, BitVec.ofNat 64 (match s.core.act with | some x => x.actlim | none => 0))] : List (Nat × Word)),
       wB p b = e.1 → givesReg (.xferMfs p a b) p (wA p a) e.2 s) ∧
  (∀ (p : Pre) (a b : BitVec 4) (s : State), s.plain → p.fwd = none → names s [wA p a] [] = .ok () → redundant s = false →
     (wB p b = 5 → ∃ t v, exec (.xferMfs p a b) s = .next t ∧ readLE t.core.ls (wAddr s (wA p a)) 8 = v.toNat ∧
       onlyBytes (wAddr s (wA p a)) 8 { s with pkg := { s.pkg with time := v }, freeCtr := s.freeCtr + 1 } t ∧ standsAt (nextPc p s) s t) ∧
     (wB p b = 6 → ∃ t v, exec (.xferMfs p a b) s = .next t ∧ readLE t.core.ls (wAddr s (wA p a)) 8 = BitVec.toNat (w := 64) v ∧
       onlyBytes (wAddr s (wA p a)) 8 { s with freeCtr := s.freeCtr + 1 } t ∧ standsAt (nextPc p s) s t) ∧
     (28 ≤ wB p b → exec (.xferMfs p a b) s = .next (takeTrap 1 (illValue 8 (.xferMfs p a b)) s))) ∧
  (∀ (p : Pre) (a b : BitVec 4) (s : State) (x : Act), s.plain → p.fwd = none → names s [wA p a] [] = .ok () → s.core.act = some x → x.redm ≠ 0 →
     wB p b = 8 →
     (x.rplc = 0 → ∃ t, exec (.xferMfs p a b) s = .next t ∧ readLE t.core.ls (wAddr s (wA p a)) 8 = s.core.actCount.toNat ∧
       (ctx t).leadLog = (ctx s).leadLog.take (ctx s).leadPos ++ [s.core.actCount.toNat] ∧ (ctx t).leadPos = (ctx s).leadPos + 1) ∧
     (x.rplc ≠ 0 → ∀ o, ((coreOf s (x.group.getD 0 0)).ctxs.getD s.core.cur {}).leadLog[(ctx s).leadPos]? = o →
       (∀ v, o = some v → ∃ t, exec (.xferMfs p a b) s = .next t ∧ readLE t.core.ls (wAddr s (wA p a)) 8 = v % 2 ^ 64 ∧
         (ctx t).leadPos = (ctx s).leadPos + 1) ∧
       (o = none → exec (.xferMfs p a b) s = .next (block .leader s))))

/-- R26: an `xfer.mts` to FLG raises ILL with REASON 8, naming the base word, when the value has RM of 5 to 7 or PL of 1 or 9 to 15; otherwise it
writes every RW field and ignores LA and the RES bits. -/
def Obligations.MtsFlg : Prop :=
  ∀ (p : Pre) (a b : BitVec 4) (s : State) (x : Word), s.plain → p.fwd = none → usable s [wA p a] [] → wB p b = 2 → x.toNat = regW s (wA p a) →
    (5 ≤ (x.extractLsb' 16 3).toNat ∨ x.extractLsb' 12 4 = 1 ∨ 9 ≤ (x.extractLsb' 12 4).toNat →
      ∃ v, exec (.xferMts p a b) s = .next (takeTrap 1 v s) ∧ v / 2 ^ 20 = 8 ∧ v % 2 ^ 16 = (baseWord (.xferMts p a b)).toNat) ∧
    ((x.extractLsb' 16 3).toNat ≤ 4 → x.extractLsb' 12 4 ≠ 1 → (x.extractLsb' 12 4).toNat ≤ 8 →
      ∃ t, exec (.xferMts p a b) s = .next t ∧ onlyCtx s t ∧
        ctx t = { (ctx s).wentTo (nextPc p s) with flg := x &&& 0x1FFF1F })

/-- R20, R28, R42, R128: MTS to WP, TVEC, TWP, REPST, SLEEP, QSTAT and FPST: the checks of each, and its write; nothing else changes. A number that is
read only or above 27 is ILL with REASON 8. R20: the check of a new WP: a window that leaves the general local store is LSPROT, whatever the
alignment, then a WP that is no multiple of 64 is ALIGN. -/
def Obligations.SystemWrites : Prop :=
  (∀ (p : Pre) (a b : BitVec 4) (s : State) (x : Word) (t0 : State), s.plain → p.fwd = none → usable s [wA p a] [] → x.toNat = regW s (wA p a) →
     t0 = goTo (nextPc p s) s →
     (wB p b = 1 → checkWp s x.toNat = .ok () → ∃ t, exec (.xferMts p a b) s = .next t ∧ onlyCtx s t ∧ ctx t = { ctx t0 with wp := x }) ∧
     (wB p b = 15 → x.toNat % 2 = 0 → exec (.xferMts p a b) s = .next { t0 with core := { t0.core with tvec := x } }) ∧
     (wB p b = 15 → x.toNat % 2 = 1 → exec (.xferMts p a b) s = .next (takeTrap 3 x.toNat s)) ∧
     (wB p b = 16 → checkWp s x.toNat = .ok () → exec (.xferMts p a b) s = .next { t0 with core := { t0.core with twp := x } }) ∧
     (wB p b = 17 → ∃ t, exec (.xferMts p a b) s = .next t ∧ onlyCtx s t ∧ ctx t = { ctx t0 with repst := x &&& 0xFFFFFFFF7FFFFFFE }) ∧
     (wB p b = 18 → x.toNat < 3 → exec (.xferMts p a b) s = .next { t0 with core := { t0.core with sleep := x } }) ∧
     (wB p b = 18 → 3 ≤ x.toNat → exec (.xferMts p a b) s = .next (takeTrap 1 (illValue 8 (.xferMts p a b)) s)) ∧
     (wB p b = 23 → exec (.xferMts p a b) s = .next { t0 with core := { t0.core with qstat := s.core.qstat &&& ~~~(x &&& 3) } }) ∧
     (wB p b = 24 → exec (.xferMts p a b) s = .next { t0 with core := { t0.core with fpst := s.core.fpst &&& ~~~(x &&& 31) } }) ∧
     (wB p b ∈ [0, 3, 4, 5, 6, 7, 8, 9, 10, 11, 12, 13, 14, 19, 20, 21, 22, 25, 26, 27] ∨ 28 ≤ wB p b →
       exec (.xferMts p a b) s = .next (takeTrap 1 (illValue 8 (.xferMts p a b)) s))) ∧
  (∀ (s : State) (v nw nv : Nat), windowOf s = (nw, nv) →
     (0x1F000 < v + 8 * nw ∨ (nv ≠ 0 ∧ 0x1F000 < v + 512 + 64 * nv) → checkWp s v = .error (.trap 4 v)) ∧
     (v + 8 * nw ≤ 0x1F000 → (nv = 0 ∨ v + 512 + 64 * nv ≤ 0x1F000) →
       (v % 64 ≠ 0 → checkWp s v = .error (.trap 3 v)) ∧ (v % 64 = 0 → checkWp s v = .ok ())))

/-! ## Floating point and vectors -/

/-- R118, R119, R54, R56 to R58: the FPU functions that round write W[d] with the result in the format and the rounding mode of the chain and set its
bits in FPST and QSTAT, where they are sticky; one that sets NV while FLG.FPTE = 1 raises FPINV and writes nothing. R119 to R121: FMIN, FMAX, FABS,
FNEG and FCLASS write W[d] and set no status; FCMP sets the five flags by the relation of its operands and nothing else. -/
def Obligations.FpuResults : Prop :=
  (∀ (p : Pre) (a b : BitVec 4) (s : State) (f : Fmt) (m : Nat) (t : Bool), s.plain → f = fmtOf (fpEt p) → m = fpMode p s → t = flgSAT s →
     (∀ x y, ∀ e ∈ ([(Instr.fpuFadd p a b, fadd f m t (fpArg p x) (fpArg p y)), (.fpuFsub p a b, fadd f m t (fpArg p x) (fpArg p y).neg),
         (.fpuFmul p a b, fmul f m t (fpArg p x) (fpArg p y)), (.fpuFscl p a b, fscale f m t (fpArg p x) (sv y 64))] : List (Instr × FR)),
       twoSrc e.1 s p a b = .ok (x, y) →
         (flgFPTE s = false ∨ bit e.2.st 0 = false →
           givesBytes e.1 (nextPc p s) (wAddr s (wA p a)) (bytesLE e.2.val 8) s (sticky e.2.st e.2.sat s)) ∧
         (flgFPTE s = true → bit e.2.st 0 = true → exec e.1 s = .next (takeTrap 8 0 s))) ∧
     (∀ x, ∀ e ∈ ([(Instr.fpuFcvti p a b, fToInt true 64 m t (fpArg p x)), (.fpuFcvtf p a b, intToF f m t (sv x 64)),
         (.fpuFrnd p a b, frnd f m (x % 2 ^ f.width))] : List (Instr × FR)),
       oneSrc e.1 s p a b = .ok x →
         (flgFPTE s = false ∨ bit e.2.st 0 = false →
           givesBytes e.1 (nextPc p s) (wAddr s (wA p a)) (bytesLE e.2.val 8) s (sticky e.2.st e.2.sat s)) ∧
         (flgFPTE s = true → bit e.2.st 0 = true → exec e.1 s = .next (takeTrap 8 0 s))) ∧
     (∀ x r, p.reg.isSome = true → 8 ≤ cNum p → cNum p ≤ 13 → oneSrc (.fpuFcvt p a b) s p a b = .ok x →
       r = fconv f m t (fdec (fmtOf (cNum p)) (x % 2 ^ (fmtOf (cNum p)).width)) → (flgFPTE s = false ∨ bit r.st 0 = false) →
       givesBytes (.fpuFcvt p a b) (nextPc p s) (wAddr s (wA p a)) (bytesLE r.val 8) s (sticky r.st r.sat s)) ∧
     (∀ g r, p.reg.isSome = true → names s [wA p a, wB p b, cNum p] [] = .ok () → forwarded (.fpuFma p a b) s (some (wB p b)) (some (cNum p)) = .ok g →
       reads s ([wA p a] ++ unreplaced g [wB p b] [cNum p]) [] = .ok () →
       r = ffma f m t (fpArg p (regW s (wA p a))) (fpArg p (srcB s g (wB p b))) (fpArg p (srcC s g (cNum p))) →
       (flgFPTE s = false ∨ bit r.st 0 = false) →
       givesBytes (.fpuFma p a b) (nextPc p s) (wAddr s (wA p a)) (bytesLE r.val 8) s (sticky r.st r.sat s))) ∧
  (∀ (p : Pre) (a b : BitVec 4) (s : State) (f : Fmt), s.plain → f = fmtOf (fpEt p) →
     (∀ x y, ∀ e ∈ ([(Instr.fpuFmin p a b, fminBits f (x % 2 ^ f.width) (y % 2 ^ f.width)),
         (.fpuFmax p a b, fmaxBits f (x % 2 ^ f.width) (y % 2 ^ f.width))] : List (Instr × Nat)),
       twoSrc e.1 s p a b = .ok (x, y) → givesBytes e.1 (nextPc p s) (wAddr s (wA p a)) (bytesLE e.2 8) s s) ∧
     (∀ x, ∀ e ∈ ([(Instr.fpuFabs p a b, fabsBits f (x % 2 ^ f.width)), (.fpuFneg p a b, fnegBits f (x % 2 ^ f.width)),
         (.fpuFclass p a b, fclass f (x % 2 ^ f.width))] : List (Instr × Nat)),
       oneSrc e.1 s p a b = .ok x → givesBytes e.1 (nextPc p s) (wAddr s (wA p a)) (bytesLE e.2 8) s s) ∧
     (∀ x y nan, twoSrcNoDst (.fpuFcmp p a b) s p a b = .ok (x, y) → nan = ((fpArg p x).isNan || (fpArg p y).isNan) →
       givesFlags (.fpuFcmp p a b) p (feq (fpArg p x) (fpArg p y) && !nan) (fless (fpArg p x) (fpArg p y) && !nan)
         (!fless (fpArg p x) (fpArg p y) || nan) nan nan s))

/-- R47, R51, R56, R161: rounding is exact where the value is representable: converting any value of a format to the same format gives its own bits,
with no status, in every mode; a NaN gives the canonical NaN of its sign (R49). -/
def Obligations.RoundingIsExact : Prop :=
  ∀ (et m x : Nat) (t : Bool), 8 ≤ et → et ≤ 13 → m ≤ 4 → x < 2 ^ (fmtOf et).width →
    ((fdec (fmtOf et) x).isNan = false → fconv (fmtOf et) m t (fdec (fmtOf et) x) = { val := x }) ∧
    ((fdec (fmtOf et) x).isNan = true → (fconv (fmtOf et) m t (fdec (fmtOf et) x)).val = canonNan (fmtOf et) (fdec (fmtOf et) x).sign)

/-- R123, R30: DIV, DIVN, REM and REMN by a divisor that is not 0 (quotients truncate toward zero, remainders take the dividend's sign), FDIV and
FSQRT: the result is written at once with la = 0, else it is outstanding for la instructions; nothing else changes but the status of FDIV and FSQRT.
R161, R30: 2^x, 1/x, 1/√x and log2 x of every lane of V[b] are one long result in V[a], with the status of all lanes. The model's own choices that it
rests on: notes/assumptions/27.md. -/
def Obligations.LongResults : Prop :=
  (∀ (p : Pre) (a b l : BitVec 4) (s : State), s.plain →
     (∀ x y : Word, y ≠ 0 → ∀ e ∈ ([(Instr.longDiv p a b l, x.sdiv y), (.longDivn p a b l, x / y), (.longRem p a b l, x.srem y),
         (.longRemn p a b l, x % y)] : List (Instr × Word)),
       twoSrc e.1 s p a b = .ok (x.toNat, y.toNat) → givesLong e.1 p l (wAddr s (wA p a)) (bytesLE e.2.toNat 8) s s) ∧
     (∀ x y r, twoSrc (.longFdiv p a b l) s p a b = .ok (x, y) →
       r = fdiv (fmtOf (fpEt p)) (fpMode p s) (flgSAT s) (fpArg p x) (fpArg p y) → (flgFPTE s = false ∨ bit r.st 0 = false) →
       givesLong (.longFdiv p a b l) p l (wAddr s (wA p a)) (bytesLE r.val 8) s (sticky r.st r.sat s)) ∧
     (∀ x r, oneSrc (.longFsqrt p a b l) s p a b = .ok x →
       r = fsqrt (fmtOf (fpEt p)) (fpMode p s) (flgSAT s) (fpArg p x) → (flgFPTE s = false ∨ bit r.st 0 = false) →
       givesLong (.longFsqrt p a b l) p l (wAddr s (wA p a)) (bytesLE r.val 8) s (sticky r.st r.sat s))) ∧
  (∀ (p : Pre) (a b l : BitVec 4) (s : State) (et : Nat) (m : Rnd), s.plain → p.fwd = none → et = vecEt p s → m = rnd p s →
     ∀ e ∈ ([(Instr.longVexp2 p a b l, fexp2), (.longVrcp p a b l, frcp), (.longVrsq p a b l, frsqrt), (.longVlog2 p a b l, flog2)] :
         List (Instr × (Fmt → Rnd → FV → FR))), ∀ rs,
       rs = (regLanes et s (vB s p b)).map (fun x => e.2 (fmtOf et) m (fdec (fmtOf et) x)) →
       checkType e.1 s = .ok () → vecReady s [] [vA s p a, vB s p b] [] [vB s p b] →
       (flgFPTE s = false ∨ bit (statusOf rs).1 0 = false) →
       givesLong e.1 p l (vAddr s (vA s p a)) (unlanes (etBytes et) (rs.map (·.val))) s (sticky (statusOf rs).1 (statusOf rs).2 s))

/-- R30, R31, R33, R34: an outstanding long result counts each instruction of its context, is written when its window is full, and its flags form
leaves the rest of FLG; it is written before an instruction of R33 (here FENCE.IBAR), whose window stays open and counts that instruction. The model's
own choices that it rests on: notes/assumptions/13.md, notes/assumptions/14.md. -/
def Obligations.LongWindows : Prop :=
  ∀ (s : State) (l : Long), s.wf = true → asyncDue s = none → repActive (ctx s).repst.toNat = false → (ctx s).longs = [l] → (ctx s).stage = 0 →
    (0 < l.left → ∃ t, exec .sysNop s = .next t ∧ onlyCtx s t ∧
      ctx t = { (ctx s).wentTo (nextPc {} s) with longs := [{ l with left := l.left - 1 }] }) ∧
    (l.written = false → l.left = 0 → l.flags = none → ∃ t, exec (.longResultWrite s.core.id s.core.cur) s = .next t ∧
      readBytes t.core.ls l.addr l.bytes.length = l.bytes ∧ onlyBytes l.addr l.bytes.length s t ∧ ctx t = { ctx s with longs := [] }) ∧
    (∀ f, l.written = false → l.left = 0 → l.flags = some f → ∃ t, exec (.longResultWrite s.core.id s.core.cur) s = .next t ∧ onlyCtx s t ∧
      ctx t = { ctx s with longs := [], flg := ((ctx s).flg &&& 0xFFFFFFFFFFFFFFE0) ||| f.setWidth 64 }) ∧
    (l.left ≠ 0 → exec (.longResultWrite s.core.id s.core.cur) s = .next s) ∧
    (l.written = false → l.flags = none → ∃ t, exec .sysFenceIbar s = .next t ∧ readBytes t.core.ls l.addr l.bytes.length = l.bytes ∧
      (ctx t).longs = if l.left = 0 then [] else [{ l with written := true, left := l.left - 1 }])

/-- R143, R145 to R147, R159, R160: the lane functions write V[d] lane by lane, from x and y, from s, from V[c] or V[d] and the immediate, or fused
from three registers, and set the status of all lanes; nothing else changes. One that sets NV while FLG.FPTE = 1 raises FPINV. R147, R160, R53: the
fused functions `vec.fma` (V[a] + V[b] × V[c]) and `vec.fmai` (V[c] + V[a] × immediate), lane by lane, rounded once; PFX.R is required. R148:
`vec.iota` writes W[b] + i in lane i: wrapped in an integer type; read as a signed number and rounded in a floating-point type. The model's own
choices that it rests on: notes/assumptions/22.md. -/
def Obligations.VecLanes : Prop :=
  (∀ (p : Pre) (a b : BitVec 4) (s : State) (et d x y c : Nat) (m : Rnd), s.plain → p.fwd = none → et = vecEt p s → m = rnd p s → d = vA s p a →
     x = (if p.reg.isSome then vB s p b else d) → y = (if p.reg.isSome then vC s p else vB s p b) → c = (if p.reg.isSome then vC s p else d) →
     ∀ e ∈ ([
       (Instr.vecAdd p a b, [x, y], List.zipWith (laneAdd et m) (regLanes et s x) (regLanes et s y)),
       (.vecSub p a b, [x, y], List.zipWith (laneSub et m) (regLanes et s x) (regLanes et s y)),
       (.vecMul p a b, [x, y], List.zipWith (laneMul et m) (regLanes et s x) (regLanes et s y)),
       (.vecMin p a b, [x, y], plain (List.zipWith (laneMin et) (regLanes et s x) (regLanes et s y))),
       (.vecMax p a b, [x, y], plain (List.zipWith (laneMax et) (regLanes et s x) (regLanes et s y))),
       (.vecShl p a b, [x, y], plain (List.zipWith (laneShl et) (regLanes et s x) (regLanes et s y))),
       (.vecShr p a b, [x, y], plain (List.zipWith (laneShr et) (regLanes et s x) (regLanes et s y))),
       (.vecSar p a b, [x, y], plain (List.zipWith (laneSar et) (regLanes et s x) (regLanes et s y))),
       (.vecAbs p a b, [vB s p b], plain ((regLanes et s (vB s p b)).map (laneAbs et))),
       (.vecNeg p a b, [vB s p b], plain ((regLanes et s (vB s p b)).map (laneNeg et))),
       (.vecRnd p a b, [vB s p b], (regLanes et s (vB s p b)).map (frnd (fmtOf et) m.mode)),
       (.vecAddi p a b, [c], (regLanes et s c).mapIdx (fun j z => laneAdd et m z (immLane et (vecImm p b) j))),
       (.vecMuli p a b, [c], (regLanes et s c).mapIdx (fun j z => laneMul et m z (immLane et (vecImm p b) j))),
       (.vecMini p a b, [c], plain ((regLanes et s c).mapIdx (fun j z => laneMin et z (immLane et (vecImm p b) j)))),
       (.vecMaxi p a b, [c], plain ((regLanes et s c).mapIdx (fun j z => laneMax et z (immLane et (vecImm p b) j))))] :
         List (Instr × List Nat × List FR)),
       checkType e.1 s = .ok () → vecReady s [] (d :: e.2.1) [] e.2.1 →
         (flgFPTE s = false ∨ bit (statusOf e.2.2).1 0 = false →
           givesBytes e.1 (nextPc p s) (vAddr s d) (unlanes (etBytes et) (e.2.2.map (·.val))) s
             (sticky (statusOf e.2.2).1 (statusOf e.2.2).2 s)) ∧
         (flgFPTE s = true → bit (statusOf e.2.2).1 0 = true → exec e.1 s = .next (takeTrap 8 0 s))) ∧
  (∀ (p : Pre) (a b : BitVec 4) (s : State) (et d : Nat) (m : Rnd), s.plain → p.fwd = none → p.reg.isSome = true → et = vecEt p s → m = rnd p s →
     d = vA s p a →
     ∀ e ∈ ([
       (Instr.vecFma p a b, [d, vB s p b, vC s p], [d, vB s p b, vC s p], (List.range (64 / etBytes et)).map (fun j =>
         laneFma et m ((regLanes et s d).getD j 0) ((regLanes et s (vB s p b)).getD j 0) ((regLanes et s (vC s p)).getD j 0))),
       (.vecFmai p a b, [d, vC s p], [d, vC s p], (List.range (64 / etBytes et)).map (fun j =>
         laneFma et m ((regLanes et s (vC s p)).getD j 0) ((regLanes et s d).getD j 0) (immLane et (vecImm p b) j)))] :
         List (Instr × List Nat × List Nat × List FR)),
       checkType e.1 s = .ok () → vecReady s [] e.2.1 [] e.2.2.1 →
       (flgFPTE s = false ∨ bit (statusOf e.2.2.2).1 0 = false) →
         givesBytes e.1 (nextPc p s) (vAddr s d) (unlanes (etBytes et) (e.2.2.2.map (·.val))) s
           (sticky (statusOf e.2.2.2).1 (statusOf e.2.2.2).2 s)) ∧
  (∀ (p : Pre) (a b : BitVec 4) (s : State) (et d : Nat) (rs : List FR), s.plain → p.fwd = none → et = vecEt p s → d = vA s p a →
     checkType (.vecIota p a b) s = .ok () → vecReady s [wB p b] [d] [wB p b] [] →
     rs = (List.range (64 / etBytes et)).map (fun (i : Nat) =>
       if et < 8 then { val := (regW s (wB p b) + i) % 2 ^ etWidth et }
       else intToF (fmtOf et) (fpMode p s) (flgSAT s) (sv (regW s (wB p b)) 64 + i)) →
     (flgFPTE s = false ∨ bit (statusOf rs).1 0 = false) →
     givesBytes (.vecIota p a b) (nextPc p s) (vAddr s d) (unlanes (etBytes et) (rs.map (·.val))) s (sticky (statusOf rs).1 (statusOf rs).2 s))

/-- R147, R148, R157, R160, R46: the functions that move bytes or lanes write V[d] and set no status: AND, OR, XOR, MOV, BC, BCI, SEL, PERM, SLD and
LUT; nothing else changes. R148: `vec.ins` writes W[b], reduced to the width of the lane type, into lane W[c] modulo the number of lanes of V[a]; the
bytes of the other lanes stay. R87, R240: of the vector functions, those that name a w register as source take a forwarded value in its place: BC,
IOTA and INS in field b, INS, SEL, SLD, EXT, QNT and DQNT in field c; PFX.F before any other is ILL with REASON 9. -/
def Obligations.VecMoves : Prop :=
  (∀ (p : Pre) (a b : BitVec 4) (s : State) (et d x y n : Nat), s.plain → p.fwd = none → et = vecEt p s → d = vA s p a → n = 64 / etBytes et →
     x = (if p.reg.isSome then vB s p b else d) → y = (if p.reg.isSome then vC s p else vB s p b) →
     ∀ e ∈ ([
       (Instr.vecAnd p a b, false, false, ([], [d, x, y], [], [x, y]), List.zipWith (· &&& ·) (regV s x) (regV s y)),
       (.vecOr p a b, false, false, ([], [d, x, y], [], [x, y]), List.zipWith (· ||| ·) (regV s x) (regV s y)),
       (.vecXor p a b, false, false, ([], [d, x, y], [], [x, y]), List.zipWith (· ^^^ ·) (regV s x) (regV s y)),
       (.vecMov p a b, false, false, ([], [d, vB s p b], [], [vB s p b]), regV s (vB s p b)),
       (.vecLut p a b, false, false, ([], [d, vB s p b], [], [vB s p b]),
         (List.range 64).map (fun i => lutEntry s.core.lut (lutCode ((regV s (vB s p b)).drop (32 * (cNum p % 2))) i))),
       (.vecBc p a b, false, true, ([wB p b], [d], [wB p b], []), unlanes (etBytes et) (List.replicate n (regW s (wB p b)))),
       (.vecBci p a b, false, true, ([], [d], [], []), unlanes (etBytes et) ((List.range n).map (immLane et (vecImm p b)))),
       (.vecSel p a b, true, true, ([cNum p], [d, vB s p b], [cNum p], [d, vB s p b]), unlanes (etBytes et) ((List.range n).map (fun i =>
         if bit (regW s (cNum p)) i then (regLanes et s (vB s p b)).getD i 0 else (regLanes et s d).getD i 0))),
       (.vecPerm p a b, true, true, ([], [d, vB s p b, vC s p], [], [vB s p b, vC s p]), unlanes (etBytes et)
         ((regLanes et s (vC s p)).map (fun i => (regLanes et s (vB s p b)).getD (i % n) 0))),
       (.vecSld p a b, true, true, ([cNum p], [d, vB s p b], [cNum p], [vB s p b]), unlanes (etBytes et) ((List.range n).map (fun i =>
         (regLanes et s (vB s p b)).getD (i + regW s (cNum p)) 0)))] :
         List (Instr × Bool × Bool × (List Nat × List Nat × List Nat × List Nat) × List Byte)),
       (e.2.1 = true → p.reg.isSome = true) → (e.2.2.1 = true → checkType e.1 s = .ok ()) →
         vecReady s e.2.2.2.1.1 e.2.2.2.1.2.1 e.2.2.2.1.2.2.1 e.2.2.2.1.2.2.2 →
         givesBytes e.1 (nextPc p s) (vAddr s d) e.2.2.2.2 s s) ∧
  (∀ (p : Pre) (a b : BitVec 4) (s : State) (et n : Nat), s.plain → p.fwd = none → p.reg.isSome = true → et = vecEt p s → n = 64 / etBytes et →
     checkType (.vecIns p a b) s = .ok () → vecReady s [wB p b, cNum p] [vA s p a] [wB p b, cNum p] [] →
     givesBytes (.vecIns p a b) (nextPc p s) (vAddr s (vA s p a) + regW s (cNum p) % n * etBytes et) (bytesLE (regW s (wB p b)) (etBytes et)) s s) ∧
  (∀ (p : Pre) (a b : BitVec 4) (s : State) (et d x y c n v : Nat), s.plain → p.fwd.isSome = true → et = vecEt p s → d = vA s p a → n = 64 / etBytes et →
     x = (if p.reg.isSome then vB s p b else d) → y = (if p.reg.isSome then vC s p else vB s p b) → c = (if p.reg.isSome then vC s p else d) →
     (forwarded (.vecBc p a b) s (some (wB p b)) none = .ok (some (false, v)) → checkType (.vecBc p a b) s = .ok () →
       vecReady s [wB p b] [d] [] [] → givesBytes (.vecBc p a b) (nextPc p s) (vAddr s d) (unlanes (etBytes et) (List.replicate n v)) s s) ∧
     (∀ rs, forwarded (.vecIota p a b) s (some (wB p b)) none = .ok (some (false, v)) → checkType (.vecIota p a b) s = .ok () →
       vecReady s [wB p b] [d] [] [] → rs = (List.range n).map (fun (i : Nat) =>
         if et < 8 then { val := (v + i) % 2 ^ etWidth et } else intToF (fmtOf et) (fpMode p s) (flgSAT s) (sv v 64 + i)) →
       (flgFPTE s = false ∨ bit (statusOf rs).1 0 = false) → givesBytes (.vecIota p a b) (nextPc p s) (vAddr s d)
         (unlanes (etBytes et) (rs.map (·.val))) s (sticky (statusOf rs).1 (statusOf rs).2 s)) ∧
     (p.reg.isSome = true →
       (checkType (.vecIns p a b) s = .ok () →
         (forwarded (.vecIns p a b) s (some (wB p b)) (some (cNum p)) = .ok (some (false, v)) →
           vecReady s [wB p b, cNum p] [d] [cNum p] [] →
           givesBytes (.vecIns p a b) (nextPc p s) (vAddr s d + regW s (cNum p) % n * etBytes et) (bytesLE v (etBytes et)) s s) ∧
         (forwarded (.vecIns p a b) s (some (wB p b)) (some (cNum p)) = .ok (some (true, v)) →
           vecReady s [wB p b, cNum p] [d] [wB p b] [] →
           givesBytes (.vecIns p a b) (nextPc p s) (vAddr s d + v % n * etBytes et) (bytesLE (regW s (wB p b)) (etBytes et)) s s)) ∧
       (forwarded (.vecSel p a b) s none (some (cNum p)) = .ok (some (true, v)) →
         (checkType (.vecSel p a b) s = .ok () → vecReady s [cNum p] [d, vB s p b] [] [d, vB s p b] →
           givesBytes (.vecSel p a b) (nextPc p s) (vAddr s d) (unlanes (etBytes et) ((List.range n).map (fun i =>
             if bit v i then (regLanes et s (vB s p b)).getD i 0 else (regLanes et s d).getD i 0))) s s) ∧
         (checkType (.vecSld p a b) s = .ok () → vecReady s [cNum p] [d, vB s p b] [] [vB s p b] →
           givesBytes (.vecSld p a b) (nextPc p s) (vAddr s d) (unlanes (etBytes et) ((List.range n).map (fun i =>
             (regLanes et s (vB s p b)).getD (i + v) 0))) s s) ∧
         (checkType (.vecExt p a b) s = .ok () → vecReady s [wA p a, cNum p] [vB s p b] [] [vB s p b] →
           givesBytes (.vecExt p a b) (nextPc p s) (wAddr s (wA p a)) (bytesLE (laneW et ((regLanes et s (vB s p b)).getD (v % n) 0)) 8) s s) ∧
         (∀ m q, m = vB s p b → checkType (.vecQnt p a b) s = .ok () → vecReady s [cNum p] [d, m, m + 1] [] [d, m, m + 1] →
           q = quantise et (fpMode p s) ((regLanes 12 s m ++ regLanes 12 s (m + 1)).map (fdec f32)) → (flgFPTE s = false ∨ bit (statusOf q.1).1 0 = false) →
           ∃ t, exec (.vecQnt p a b) s = .next t ∧ readLE t.core.ls (wAddr s (cNum p)) 8 = (v / 256 + q.2 * 2 ^ 56) % 2 ^ 64) ∧
         (∀ rs, checkType (.vecDqnt p a b) s = .ok () → vecReady s [cNum p] [d, d + 1, vB s p b] [] [vB s p b] →
           rs = ((regLanes 0 s (vB s p b)).take 32).map (dqntElem et (rnd p s) (v % 256)) → (flgFPTE s = false ∨ bit (statusOf rs).1 0 = false) →
           ∃ t, exec (.vecDqnt p a b) s = .next t ∧ readLE t.core.ls (wAddr s (cNum p)) 8 = v / 256 % 2 ^ 64 ∧
             readBytes t.core.ls (vAddr s d) 64 = unlanes 4 ((rs.map (·.val)).take 16)))) ∧
     (∀ e ∈ ([(Instr.vecAdd p a b, false, true, [], [d, x, y]), (.vecSub p a b, false, true, [], [d, x, y]), (.vecMul p a b, false, true, [], [d, x, y]),
         (.vecMin p a b, false, true, [], [d, x, y]), (.vecMax p a b, false, true, [], [d, x, y]), (.vecShl p a b, false, true, [], [d, x, y]),
         (.vecShr p a b, false, true, [], [d, x, y]), (.vecSar p a b, false, true, [], [d, x, y]), (.vecAnd p a b, false, false, [], [d, x, y]),
         (.vecOr p a b, false, false, [], [d, x, y]), (.vecXor p a b, false, false, [], [d, x, y]), (.vecAbs p a b, false, true, [], [d, vB s p b]),
         (.vecNeg p a b, false, true, [], [d, vB s p b]), (.vecRnd p a b, false, true, [], [d, vB s p b]), (.vecMov p a b, false, false, [], [d, vB s p b]),
         (.vecLut p a b, false, false, [], [d, vB s p b]), (.vecLdtb p b, false, false, [], [vB s p b]),
         (.vecFma p a b, true, true, [], [d, vB s p b, vC s p]), (.vecPerm p a b, true, true, [], [d, vB s p b, vC s p]),
         (.vecCeq p a b, true, true, [wA p a], [vB s p b, vC s p]), (.vecClt p a b, true, true, [wA p a], [vB s p b, vC s p]),
         (.vecCle p a b, true, true, [wA p a], [vB s p b, vC s p]), (.vecDot p a b, true, true, [wA p a, wA p a + 1], [vB s p b, vC s p]),
         (.vecRsum p a b, false, true, [wA p a], [vB s p b]), (.vecRmax p a b, false, true, [wA p a], [vB s p b]),
         (.vecRmin p a b, false, true, [wA p a], [vB s p b]), (.vecAddi p a b, false, true, [], [d, c]), (.vecMuli p a b, false, true, [], [d, c]),
         (.vecMini p a b, false, true, [], [d, c]), (.vecMaxi p a b, false, true, [], [d, c]), (.vecCeqi p a b, true, true, [wA p a], [vC s p]),
         (.vecClti p a b, true, true, [wA p a], [vC s p]), (.vecBci p a b, false, true, [], [d]), (.vecFmai p a b, true, true, [], [d, vC s p])] :
         List (Instr × Bool × Bool × List Nat × List Nat)),
       (e.2.1 = true → p.reg.isSome = true) → (e.2.2.1 = true → checkType e.1 s = .ok ()) → vecNames s e.2.2.2.1 e.2.2.2.2 = .ok () →
       exec e.1 s = .next (takeTrap 1 (illValue 9 e.1) s)))

/-- R148 to R150, R160: the functions from v registers to a w register: comparisons give a mask with bit i for lane i, RSUM, RMAX and RMIN combine the
lanes in a tree of neighbours, EXT takes a lane; the value of a signed lane is sign-extended. R150: `vec.dot` adds the tree sum of the lane products
to W[a]: the integer sum modulo 2^64; in a floating-point type the sum times the two f32 factors of W[a+1], added and rounded once. -/
def Obligations.VecToW : Prop :=
  (∀ (p : Pre) (a b : BitVec 4) (s : State) (et n : Nat) (x y : List Nat) (m : Rnd), s.plain → p.fwd = none → et = vecEt p s → m = rnd p s →
     n = 64 / etBytes et → x = regLanes et s (vB s p b) → y = regLanes et s (vC s p) →
     ∀ e ∈ ([
       (Instr.vecCeq p a b, true, ([], [vB s p b, vC s p]), { val := maskOf (List.zipWith (laneEq et) x y) }),
       (.vecClt p a b, true, ([], [vB s p b, vC s p]), { val := maskOf (List.zipWith (laneLt et) x y) }),
       (.vecCle p a b, true, ([], [vB s p b, vC s p]), { val := maskOf (List.zipWith (laneLe et) x y) }),
       (.vecCeqi p a b, true, ([], [vC s p]), { val := maskOf (y.mapIdx (fun j z => laneEq et z (immLane et (vecImm p b) j))) }),
       (.vecClti p a b, true, ([], [vC s p]), { val := maskOf (y.mapIdx (fun j z => laneLt et z (immLane et (vecImm p b) j))) }),
       (.vecRsum p a b, false, ([], [vB s p b]),
         { rootFR (tree (nodeAdd et m) (plain x)) with val := laneW et (rootFR (tree (nodeAdd et m) (plain x))).val }),
       (.vecRmax p a b, false, ([], [vB s p b]), { val := laneW et ((tree (nodeMax et) x).headD 0) }),
       (.vecRmin p a b, false, ([], [vB s p b]), { val := laneW et ((tree (nodeMin et) x).headD 0) }),
       (.vecExt p a b, true, ([cNum p], [vB s p b]), { val := laneW et (x.getD (regW s (cNum p) % n) 0) })] :
         List (Instr × Bool × (List Nat × List Nat) × FR)),
       (e.2.1 = true → p.reg.isSome = true) → checkType e.1 s = .ok () → vecReady s (wA p a :: e.2.2.1.1) e.2.2.1.2 e.2.2.1.1 e.2.2.1.2 →
         (flgFPTE s = false ∨ bit e.2.2.2.st 0 = false) →
         givesBytes e.1 (nextPc p s) (wAddr s (wA p a)) (bytesLE e.2.2.2.val 8) s (sticky e.2.2.2.st e.2.2.2.sat s)) ∧
  (∀ (p : Pre) (a b : BitVec 4) (s : State) (et n : Nat) (r : FR), s.plain → p.fwd = none → p.reg.isSome = true → et = vecEt p s → n = wA p a →
     checkType (.vecDot p a b) s = .ok () → vecReady s [n, n + 1] [vB s p b, vC s p] (if et < 8 then [n] else [n, n + 1]) [vB s p b, vC s p] →
     r = rootFR (tree (nodeAdd et (rnd p s)) (List.zipWith (laneMul et (rnd p s)) (regLanes et s (vB s p b)) (regLanes et s (vC s p)))) →
     (et < 8 → givesReg (.vecDot p a b) p n (BitVec.ofNat 64 (regW s n) + BitVec.ofNat 64 (laneW et r.val)) s) ∧
     (8 ≤ et → ∀ f q, f = (if et = 13 then f64 else f32) →
       q = fma3 f (rnd p s) (fdec f (regW s n % 2 ^ f.width)) (fdec f32 (regW s (n + 1) % 2 ^ 32)) (fdec f32 (regW s (n + 1) / 2 ^ 32))
         (fdec (fmtOf et) r.val) → (flgFPTE s = false ∨ bit (r.st ||| q.st) 0 = false) →
       givesBytes (.vecDot p a b) (nextPc p s) (wAddr s n) (bytesLE q.val 8) s (sticky (r.st ||| q.st) (r.sat || q.sat) s)))

/-- R151 to R156, R158: conversions: CVT converts one part of V[b] or into one part of V[a]; QNT shifts a block of 32 codes into V[a] and its scale
into W[c]; DQNT expands one into two registers; PACK and UNPK turn 256 bytes into planes and back; LDTB loads the code table. -/
def Obligations.VecConvert : Prop :=
  ∀ (p : Pre) (a b : BitVec 4) (s : State) (et d n : Nat) (m : Rnd), s.plain → p.fwd = none → et = vecEt p s → m = rnd p s → d = vA s p a → n = vB s p b →
    (∀ src part k rs, p.reg.isSome = true → checkType (.vecCvt p a b) s = .ok () → src = cNum p % 16 → part = cNum p / 16 → src < 14 →
      part * min (etBytes et) (etBytes src) < max (etBytes et) (etBytes src) → vecReady s [] [d, n] [] [n] →
      k = 64 / max (etBytes et) (etBytes src) →
      rs = ((if etBytes et ≤ etBytes src then (regLanes src s n).take k else ((regLanes src s n).drop (part * k)).take k).map (convLane et src m)) →
      (flgFPTE s = false ∨ bit (statusOf rs).1 0 = false) →
      givesBytes (.vecCvt p a b) (nextPc p s) (vAddr s d + if etBytes et ≤ etBytes src then part * k * etBytes et else 0)
        (unlanes (etBytes et) (rs.map (·.val))) s (sticky (statusOf rs).1 (statusOf rs).2 s)) ∧
    (∀ q w, p.reg.isSome = true → checkType (.vecQnt p a b) s = .ok () → vecReady s [cNum p] [d, n, n + 1] [cNum p] [d, n, n + 1] →
      q = quantise et (fpMode p s) ((regLanes 12 s n ++ regLanes 12 s (n + 1)).map (fdec f32)) → (flgFPTE s = false ∨ bit (statusOf q.1).1 0 = false) →
      w = regW s (cNum p) / 256 + q.2 * 2 ^ 56 →
      ∃ t u, exec (.vecQnt p a b) s = .next t ∧ readLE t.core.ls (wAddr s (cNum p)) 8 = w % 2 ^ 64 ∧
        readBytes t.core.ls (vAddr s d) 64 = (regV s d).drop 32 ++ unlanes 1 (q.1.map (·.val)) ∧
        onlyBytes (vAddr s d) 64 (sticky (statusOf q.1).1 (statusOf q.1).2 s) u ∧ onlyBytes (wAddr s (cNum p)) 8 u t ∧ standsAt (nextPc p s) s t) ∧
    (∀ rs, p.reg.isSome = true → checkType (.vecDqnt p a b) s = .ok () → vecReady s [cNum p] [d, d + 1, n] [cNum p] [n] →
      rs = ((regLanes 0 s n).take 32).map (dqntElem et m (regW s (cNum p) % 256)) → (flgFPTE s = false ∨ bit (statusOf rs).1 0 = false) →
      ∃ t u v, exec (.vecDqnt p a b) s = .next t ∧ readBytes t.core.ls (vAddr s d) 64 = unlanes 4 ((rs.map (·.val)).take 16) ∧
        readBytes t.core.ls (vAddr s (d + 1)) 64 = unlanes 4 ((rs.map (·.val)).drop 16) ∧
        readLE t.core.ls (wAddr s (cNum p)) 8 = regW s (cNum p) / 256 ∧ onlyBytes (vAddr s d) 64 (sticky (statusOf rs).1 (statusOf rs).2 s) u ∧
        onlyBytes (vAddr s (d + 1)) 64 u v ∧ onlyBytes (wAddr s (cNum p)) 8 v t ∧ standsAt (nextPc p s) s t) ∧
    (vecReady s [] ([d, d + 1, d + 2, d + 3] ++ [n, n + 1, n + 2, n + 3]) [] [n, n + 1, n + 2, n + 3] →
      ∃ t, exec (.vecPack p a b) s = .next t ∧
        readBytes t.core.ls (vAddr s d) 256 = bpLine (regV s n ++ regV s (n + 1) ++ regV s (n + 2) ++ regV s (n + 3)) ∧
        (∀ x, x < vAddr s d ∨ vAddr s d + 256 ≤ x → memRead t.core.ls x = memRead s.core.ls x) ∧ standsAt (nextPc p s) s t ∧ t.pkg = s.pkg) ∧
    (∀ k, k = flgPL s → vecReady s [] ([d, d + 1, d + 2, d + 3] ++ (List.range ((k + 1) / 2)).map (n + ·)) [] ((List.range ((k + 1) / 2)).map (n + ·)) →
      ∃ t, exec (.vecUnpk p a b) s = .next t ∧
        readBytes t.core.ls (vAddr s d) 256 = (List.range 256).map (fun e =>
          BitVec.ofInt 8 (bpValue ((List.range ((k + 1) / 2)).flatMap (fun j => regV s (n + j))) k e)) ∧
        (∀ x, x < vAddr s d ∨ vAddr s d + 256 ≤ x → memRead t.core.ls x = memRead s.core.ls x) ∧ standsAt (nextPc p s) s t ∧ t.pkg = s.pkg) ∧
    (vecReady s [] [n] [] [n] → lutQueued s.core = false →
      exec (.vecLdtb p b) s = .next (goTo (nextPc p s) { s with core := { s.core with lut := BitVec.ofNat 128 (numLE ((regV s n).take 16)) } }))

/-- R147, R46, R8: an integer lane of w bits is computed modulo 2^w, ordered by its sign or without one by its type, and shifted by its unsigned
count. R61, R155, R156: the planes of 256 bytes give the bytes back at 8 planes. -/
def Obligations.IntegerLanes : Prop :=
  (∀ (et w : Nat) (m : Rnd) (x y : Nat), et < 8 → w = etWidth et → x < 2 ^ w → y < 2 ^ w →
     (laneAdd et m x y).val = (x + y) % 2 ^ w ∧ (laneSub et m x y).val = (x + (2 ^ w - y)) % 2 ^ w ∧ (laneMul et m x y).val = x * y % 2 ^ w ∧
     (∀ z, z < 2 ^ w → (laneFma et m z x y).val = (z + x * y) % 2 ^ w) ∧ laneNeg et x = (2 ^ w - x) % 2 ^ w ∧
     (4 ≤ et → laneMin et x y = min x y ∧ laneMax et x y = max x y ∧ laneLt et x y = decide (x < y) ∧ laneAbs et x = x) ∧
     (et < 4 → laneLt et x y = decide ((x + 2 ^ (w - 1)) % 2 ^ w < (y + 2 ^ (w - 1)) % 2 ^ w) ∧ laneAbs et x = (if x < 2 ^ (w - 1) then x else 2 ^ w - x)) ∧
     laneEq et x y = decide (x = y) ∧ laneShl et x y = x * 2 ^ y % 2 ^ w ∧ laneShr et x y = x / 2 ^ y) ∧
  (∀ (v : List Byte) (e : Nat), v.length = 256 → e < 256 → BitVec.ofInt 8 (bpValue (bpLine v) 8 e) = v.getD e 0)

/-! ## Memory -/

/-- R130 to R133, R254: `ld` of n bytes gives W[a] their value, sign-extended for the i types and zero-extended else, and `ld.v` gives V[a] 64 bytes:
long results from the effective address. acq makes its acquire after it (R217), which on a secondary waits for the primary's (R301); a load that asks
the home first makes its sector invalid and waits for it, and goes on with the address that its issue latched. Nothing else changes. -/
def Obligations.Loads : Prop :=
  ∀ (p : Pre) (a b l : BitVec 4) (s : State), s.plain → memEt p ≤ 13 → ∀ (i : Instr) (ea n lo : Nat) (bs : List Byte), (begins s ∨ (ctx s).ops = [ea]) →
    ((∃ x, i = .ld p a b l ∧ oneSrc i s p a b = .ok x ∧ ea = loadEa p x ∧ n = etWidth (memEt p) / 8 ∧ lo = wAddr s (wA p a) ∧
        bs = bytesLE (if memEt p < 4 then ((BitVec.ofNat (8 * n) (numLE (loadBytes s ea n))).signExtend 64).toNat else numLE (loadBytes s ea n)) 8) ∨
      (∃ f, i = .ldV p a b l ∧ names s [wB p b] [vA s p a] = .ok () ∧ forwarded i s (some (wB p b)) none = .ok f ∧ reads s (unreplaced f [wB p b] []) [] = .ok () ∧
        ea = loadEa p (srcB s f (wB p b)) ∧ n = 64 ∧ lo = vAddr s (vA s p a) ∧ bs = loadBytes s ea n)) →
    reachable s ea n → readable s ea n = .ok () →
    (ea + n ≤ 0x1F000 → loadBytes s ea n = readBytes s.core.ls ea n) ∧
    (asksHome p ea s = false → memOrder p ≠ 3 → givesLong i p l lo bs s s) ∧
    (asksHome p ea s = false → memOrder p = 3 → ∃ t, landed (nextPc p s) l lo bs s t ∧
      (redundant s = false → exec i s = .next (acquireAt (effScope p ea s) t)) ∧
      (∀ v, acquire (effScope p ea s) t = .ok v → exec i s = .next v) ∧ (∀ w, acquire (effScope p ea s) t = .error w → exec i s = .next (block .leader s))) ∧
    (asksHome p ea s = true → ∃ t, exec i s = .next t ∧ sectorValid t.core ea = false ∧ ctx t = { ctx s with stage := 1, ops := [ea], wait := .fill ea } ∧
      t.core.ls = s.core.ls ∧ t.pkg = s.pkg)

/-- R130 to R135, R313: a weak `st` stores the low bytes of W[a], a weak `st.v` V[a], at the effective address, tagged in a stash window; in PAIR and
TRIAD modes a store to plain local store journals its doublewords, and every store leaves its event records. Nothing else changes. One at core scope
does the same. Privileged stores to 0x1FE40 to 0x1FE7F write SNAPSEL (R23, R24). R134, R135, R246, R247, R254, R258: a non-temporal store is held with
its bytes and its sector becomes invalid. A rel store and a strong store wider than the core are commit points that the store belongs to (in PAIR and
TRIAD modes votes); a rel store waits until what it writes back is accepted, at sys scope also for remote traffic, and only then does either take
effect: its bytes in the local store, committed in the cluster and, from die scope on, accepted at their homes in that step; then the next instruction
follows. The model's own choices that it rests on: notes/assumptions/56.md. -/
def Obligations.Stores : Prop :=
  (∀ (p : Pre) (a b l : BitVec 4) (s : State), s.plain → memEt p ≤ 13 → memNt p = false → begins s →
     ∀ e ∈ ([(Instr.st p a b l, [wA p a, wB p b], [], [wA p a], bytesLE (regW s (wA p a)) (etWidth (memEt p) / 8)),
         (.stV p a b l, [wB p b], [vA s p a], [], regV s (vA s p a))] : List (Instr × List Nat × List Nat × List Nat × List Byte)),
       ∀ f ea bs, bs = e.2.2.2.2 → names s e.2.1 e.2.2.1 = .ok () → forwarded e.1 s (some (wB p b)) none = .ok f →
         reads s (e.2.2.2.1 ++ unreplaced f [wB p b] []) e.2.2.1 = .ok () → ea = storeEa p l (srcB s f (wB p b)) → reachable s ea bs.length →
         (0x1FE40 ≤ ea → ea < 0x1FE80 → winAt s.core ea = none → (memOrder p = 0 ∨ memOrder p = 3) → leads e.1 p s (updCore (hwPut ea bs))) ∧
         (ea < 0x1F000 → (∀ n w, winAt s.core ea = some (n, w) → writableRange s (asidOf s) (w.va + (ea - w.base)) 1 = true) →
         memOrder p ≠ 2 → (memOrder p = 1 → effScope p ea s = 0) →
         (redundant s = false → givesBytes e.1 (nextPc p s) ea bs s s) ∧
         (redundant s = true → (winAt s.core ea = none → (ctx s).journal.length + (doublewords ea bs.length).length ≤ 512) →
           ∃ t rs, exec e.1 s = .next t ∧ readBytes t.core.ls ea bs.length = bs ∧ onlyBytes ea bs.length s t ∧
             rs.length = (bs.length + 15) / 16 ∧
             ctx t = { (ctx s).wentTo (nextPc p s) with
               journal := (if (winAt s.core ea).isNone then (doublewords ea bs.length).map (fun d => (d, readBytes s.core.ls d 8)) else []) ++ (ctx s).journal
               records := (ctx s).records ++ rs }))) ∧
  ((∀ (p : Pre) (a b l : BitVec 4) (s : State), s.plain → memEt p ≤ 13 →
     ∀ e ∈ ([(Instr.st p a b l, [wA p a, wB p b], [], [wA p a], etWidth (memEt p) / 8, regW s (wA p a)),
         (.stV p a b l, [wB p b], [vA s p a], [], 64, numLE (regV s (vA s p a)))] :
         List (Instr × List Nat × List Nat × List Nat × Nat × Nat)),
       (∀ f ea va sc bs o nxt, bs = bytesLE e.2.2.2.2.2 e.2.2.2.2.1 → names s e.2.1 e.2.2.1 = .ok () → forwarded e.1 s (some (wB p b)) none = .ok f →
         reads s (e.2.2.2.1 ++ unreplaced f [wB p b] []) e.2.2.1 = .ok () → ea = storeEa p l (srcB s f (wB p b)) → ea < 0x1F000 →
         ea % bs.length = 0 → mxuNames s.core ea bs.length = false → sc = effScope p ea s →
         va = (match winAt s.core ea with | some (_, w) => w.va + (ea - w.base) | none => 0) →
         o = [ea, e.2.2.2.2.2, b2n (winAt s.core ea).isSome, va, sc] → nxt = (fun t => after p (placeStore ea bs t)) →
         (∀ n w, atCommit s → memNt p = true → winAt s.core ea = some (n, w) → heldSize (heldNow s) ≤ 254 →
           w.tagged.any (fun t => sectorOf w t.1 == sectorOf w ea) = false → s.core.act.isSome = true →
           ∃ t, exec e.1 s = .next t ∧ heldNow t = heldNow s ++ [{ ctx := s.core.cur, out := .nt va bs, seq := s.core.sent }] ∧
             sectorValid t.core ea = false ∧ t.core.ls = s.core.ls ∧ standsAt (nextPc p s) s t) ∧
         (memNt p = false → sectorValid s.core ea = true → ((winAt s.core ea).isSome = true → writableRange s (asidOf s) va 1 = true) →
           (∀ u v, atCommit s → u = commitSeg nxt (setStage 2 s) → v = releaseAt true sc u →
             (memOrder p = 1 → sc ≠ 0 → exec e.1 s = .next (retire p (performStore (winAt s.core ea).isSome ea va sc bs u))) ∧
             (memOrder p = 2 → exec e.1 s = .next (if backsOpen v then keepOps o (holdMid (block .accept (setStage 4 v)))
               else if sc = 4 ∧ awayOpen v then keepOps o (holdMid (block .remote (setStage 5 v)))
               else retire p (performStore (winAt s.core ea).isSome ea va sc bs v)))) ∧
           (redundant s = true → begins s → journalFull ea bs.length s = false → memOrder p = 2 ∨ (memOrder p = 1 ∧ sc ≠ 0) →
             exec e.1 s = .next (keepOps o (sendVote (if badHeld s then 4 else 0) nxt (setStage 2 (noteAt ea bs s))))))) ∧
       (∀ ea x inW va sc fin, (ctx s).ops = [ea, x, b2n inW, va, sc] →
         fin = (fun t => retire p (performStore inW ea va sc (bytesLE x e.2.2.2.2.1) t)) →
         (memOrder p = 1 → 3 ≤ (ctx s).stage → exec e.1 s = .next (fin s)) ∧
         (memOrder p = 2 →
           (∀ v, (ctx s).stage = 3 → v = releaseAt true sc s → exec e.1 s = .next (if backsOpen v then holdMid (block .accept (setStage 4 v))
             else if sc = 4 ∧ awayOpen v then holdMid (block .remote (setStage 5 v)) else fin v)) ∧
           ((ctx s).stage = 4 → backsOpen s = true → exec e.1 s = .next (block .accept s)) ∧
           ((ctx s).stage = 5 ∨ ((ctx s).stage = 4 ∧ backsOpen s = false) → exec e.1 s = .next (if sc = 4 ∧ awayOpen s then holdMid (block .remote (setStage 5 s))
             else fin s))))) ∧
   (∀ (ea va sc : Nat) (bs : List Byte) (u t : State), ea < 0x1F000 → t = performStore false ea va sc bs u →
     t = { u with core := { u.core with
       ls := writeBytes u.core.ls ea bs
       wins := u.core.wins.map (Option.map (remember u.core.ls ea bs.length))
       poison := unmark ea bs.length u.core.poison } } ∧
     (secondary u = true → performStore true ea va sc bs u = t) ∧
     (∀ v, secondary u = false → v = commitBytes ((List.range bs.length).map (fun i => (va + i, bs.getD i 0, false))) t →
       performStore true ea va sc bs u = if 2 ≤ sc then flushSectors (sectorAt v va) v else v)))

/-- R136 to R140, notes/assumptions/76.md: SMAP maps a window with no valid sector, once the MEM instructions that issued before it are over; SUNMAP,
SFLUSH and SINV are commit points and start the write-backs of the dirty sectors of the window or the range; after their acceptance SUNMAP unmaps the
window, SFLUSH does nothing and SINV makes the sectors invalid; SCLOSE unmaps at once, and each byte of the range then is its last contents or one
that it held earlier there, fixed once for all reads (notes/assumptions/20.md); what another context has tagged in a window that goes stays held by
it; LSCLR writes zeros. -/
def Obligations.StashInstructions : Prop :=
  ∀ (p : Pre) (a b : BitVec 4) (s : State), s.plain →
    (∀ win base len va, memOperands (.memSmap p a b) s p a b = .ok (win + 256 * base + 2 ^ 24 * (len - 1), 256 * va) → win < 4 → base < 512 → 1 ≤ len → len ≤ 256 →
      va < 2 ^ 48 → s.core.wins.getD win none = none → 256 * base + 256 * len ≤ 0x1F000 → meetsWin s.core (256 * base) (256 * len) = false →
      mappedTotal s.core + 256 * len ≤ 0x10000 → meetsWindow s (256 * base) (256 * len) = false →
      (s.core.memQ = [] → mxuNames s.core (256 * base) (256 * len) = false → copyNames s.core (256 * base) (256 * len) = false →
        leads (.memSmap p a b) p s (fun t => { t with core := { t.core with
          wins := mapAt (fun _ => some { base := 256 * base, len := 256 * len, va := 256 * va, shadow := secondary s }) win t.core.wins } })) ∧
      (s.core.memQ ≠ [] → exec (.memSmap p a b) s = .next (block .mem s))) ∧
    (∀ n u w, usable s [wA p a] [] → p.fwd = none → regW s (wA p a) = n → n < 4 → atCommit s → s.core.memQ = [] →
      u = enterMem (commitSeg (after p) s) → u.core.wins.getD n none = some w →
      exec (.memSclose p a) s = .next (retire p (leaveMem (closeWin n u))) ∧
      closeWin n u = bump (updCore (fun c => { c with
        ls := closedLs u.freeCtr w c.ls
        wins := mapAt (fun _ => none) n c.wins }) (tagsHeld n (fun _ _ => true) u)) ∧
      (∀ pas v, pas = pasOf u ((List.range (w.len / 64)).map (fun j => (n, j))) → v = (if pas = [] then u else startBack false (fun d => pas.contains d.pa) u) →
        exec (.memSunmap p a) s = .next (if pas ≠ [] ∧ backsOpen v then keepOps [n] (holdMid (block .accept (setStage 3 v)))
          else retire p (leaveMem (updCore (fun c => { c with wins := mapAt (fun _ => none) n c.wins }) (tagsHeld n (fun _ _ => true) v)))))) ∧
    (∀ n, (ctx s).stage = 3 → (ctx s).ops = [n] → exec (.memSunmap p a) s = .next (if backsOpen s then block .accept s
      else retire p (leaveMem (updCore (fun c => { c with wins := mapAt (fun _ => none) n c.wins }) (tagsHeld n (fun _ _ => true) s))))) ∧
    (∀ k (w : Win) (ls : Memory) x, Memory.wf ls = true → memRead (closedLs k w ls) x = memRead ls x ∨ (x, memRead (closedLs k w ls) x) ∈ w.earlier) ∧
    (∀ lo n inv, inv = (fun (t : State) => updCore (fun c => (rangeSectors t.core lo n).foldl (fun c y => updWin y.1 (invalidateSector y.2) c) c) t) →
      (∀ u pas v, n = 0 ∨ lo + n ≤ 0x1F000 → atCommit s → s.core.memQ = [] → u = enterMem (commitSeg (after p) s) → pas = pasOf u (rangeSectors u.core lo n) →
        v = (if pas = [] then u else startBack false (fun d => pas.contains d.pa) u) →
        (memOperands (.memSflush p a b) s p a b = .ok (lo, n) → exec (.memSflush p a b) s = .next
          (if pas ≠ [] ∧ backsOpen v then keepOps [lo, n] (holdMid (block .accept (setStage 3 v))) else retire p (leaveMem v))) ∧
        (memOperands (.memSinv p a b) s p a b = .ok (lo, n) → exec (.memSinv p a b) s = .next
          (if pas ≠ [] ∧ backsOpen v then keepOps [lo, n] (holdMid (block .accept (setStage 3 v))) else retire p (leaveMem (inv v))))) ∧
      ((ctx s).stage = 3 → (ctx s).ops = [lo, n] →
        exec (.memSflush p a b) s = .next (if backsOpen s then block .accept s else retire p (leaveMem s)) ∧
        exec (.memSinv p a b) s = .next (if backsOpen s then block .accept s else retire p (leaveMem (inv s)))) ∧
      (memOperands (.memLsclr p a b) s p a b = .ok (lo, n) → begins s → lo % 64 = 0 → n % 64 = 0 → n ≠ 0 → lo + n ≤ 0x1F000 → meetsWin s.core lo n = false →
        s.core.memQ = [] → mxuNames s.core lo n = false → redundant s = false → givesBytes (.memLsclr p a b) (nextPc p s) lo (List.replicate n 0#8) s s) ∧
      (memOperands (.memLsclr p a b) s p a b = .ok (lo, 0) → begins s → lo % 64 = 0 → goesTo (.memLsclr p a b) (nextPc p s) s) ∧
      (memOperands (.memLsclr p a b) s p a b = .ok (lo, n) → begins s → n = 0 ∨ lo + n ≤ 0x1F000 → lo % 64 ≠ 0 → exec (.memLsclr p a b) s = .next (takeTrap 3 lo s)))

/-- R101, R108, R109, R212, R231: NOP does nothing; VTYPE sets ET, and with type 15 alone PL too, a reserved plane count being ILL; SPLIT makes every
member of the gang ALONE; IDLE waits once, until an event ends it. R217, R218, R254: a release (FENCE.REL) is a commit point that starts the
write-backs of its scope's homes, waits for their acceptance and, at sys scope, for traffic to other packages; FENCE then makes the acquire of the
scope; FENCE.ACQ makes it at once (a secondary's waits for the primary's: R301); DRAIN waits for non-temporal stores; IBAR forgets the words fetched.
A scope above 4 is ILL. The model's own choices that it rests on: notes/assumptions/21.md. -/
def Obligations.SysWords : Prop :=
  (∀ s : State, s.plain →
     goesTo .sysNop (nextPc {} s) s ∧
     (∀ t y : BitVec 4, t = 15 → (y = 1 ∨ 9 ≤ y.toNat) → exec (.sysVtype t y) s = .next (takeTrap 1 (illValue 8 (.sysVtype t y)) s)) ∧
     (∀ t y : BitVec 4, (t = 15 → y = 0 ∨ (2 ≤ y.toNat ∧ y.toNat ≤ 8)) → ∃ u w, exec (.sysVtype t y) s = .next u ∧ onlyCtx s u ∧
       ctx u = { (ctx s).wentTo (nextPc {} s) with flg := w } ∧
       w.extractLsb' 8 4 = t ∧ (w.extractLsb' 12 4 = if t = 15 then y else (ctx s).flg.extractLsb' 12 4) ∧
       w.extractLsb' 0 8 = (ctx s).flg.extractLsb' 0 8 ∧ w.extractLsb' 16 48 = (ctx s).flg.extractLsb' 16 48) ∧
     (∀ m g, s.core.gang = .coupled m g → ∃ t, exec .sysSplit s = .next t ∧
       (∀ i, i < 16 → (coreOf s (16 * clusterOf s.core.id + i)).gang = .coupled m g → (coreOf t (16 * clusterOf s.core.id + i)).gang = .alone) ∧ standsAt (nextPc {} s) s t ∧ t.pkg = s.pkg ∧ t.core.ls = s.core.ls) ∧
     (s.core.gang = .alone → goesTo .sysSplit (nextPc {} s) s) ∧
     ((ctx s).stage = 0 → ∃ t, exec .sysIdle s = .next t ∧ onlyCtx s t ∧ ctx t = { ctx s with stage := 1, wait := .idle }) ∧
     ((ctx s).stage = 1 → goesTo .sysIdle (nextPc {} s) s) ∧
     (∀ h, exec (.idleEnd s.core.id h) s = .next (setCtxAt h (fun x => if x.wait = .idle then { x with wait := .none } else x) s))) ∧
  (∀ (y : BitVec 4) (s : State), s.plain →
     (y.toNat ≤ 4 →
       (∀ v, atCommit s → v = releaseAt false y.toNat (commitSeg (after {}) s) →
         ∀ e ∈ ([(Instr.sysFenceRel y, id), (.sysFence y, acquireAt y.toNat)] : List (Instr × (State → State))),
           exec e.1 s = .next (if backsOpen v then holdMid (block .accept (setStage 2 v)) else if y = 4 ∧ awayOpen v then holdMid (block .remote (setStage 3 v))
             else retire {} (e.2 v))) ∧
       ((ctx s).stage = 2 → backsOpen s = true → ∀ i ∈ [Instr.sysFenceRel y, .sysFence y], exec i s = .next (block .accept s)) ∧
       ((ctx s).stage = 3 ∨ ((ctx s).stage = 2 ∧ backsOpen s = false) →
         (y = 4 → awayOpen s = true → ∀ i ∈ [Instr.sysFenceRel y, .sysFence y], exec i s = .next (holdMid (block .remote (setStage 3 s)))) ∧
         ((y = 4 → awayOpen s = false) → goesTo (.sysFenceRel y) (nextPc {} s) s ∧ (redundant s = false → leads (.sysFence y) {} s (acquireAt y.toNat)))) ∧
       (redundant s = false → leads (.sysFenceAcq y) {} s (acquireAt y.toNat)) ∧
       (∀ u, acquire y.toNat (retire {} s) = .ok u → exec (.sysFenceAcq y) s = .next u) ∧
       (∀ w, acquire y.toNat (retire {} s) = .error w → exec (.sysFenceAcq y) s = .next (block .leader s)) ∧
       (∀ v, atCommit s → v = commitSeg (after {}) s →
         exec (.sysFenceDrain y) s = .next (if ntOpen y.toNat v then holdMid (block (.drain y.toNat) (setStage 2 v)) else retire {} v)) ∧
       ((ctx s).stage = 2 → ntOpen y.toNat s = false → goesTo (.sysFenceDrain y) (nextPc {} s) s)) ∧
     (∃ t, exec .sysFenceIbar s = .next t ∧ onlyCtx s t ∧ ctx t = { (ctx s).wentTo (nextPc {} s) with fetched := [] }) ∧
     (4 < y.toNat → ∀ i ∈ [Instr.sysFence y, .sysFenceRel y, .sysFenceAcq y, .sysFenceDrain y], exec i s = .next (takeTrap 1 (illValue 8 i) s)))

/-! ## Segments, ends, services -/

/-- R188, R248, R249, R24: a commit point of single mode: the held messages are on their way with CORE and PKG naming the sender, the held adds and
non-temporal stores too (such a store is at its home at once where a release of the same commit point passes it, R256); nothing is held or tagged, the
pushes of the segment are committed, and every live context's snapshot is what it holds, the issuing context's as it goes on. R250: a rollback of
single mode after a first commit point: every live context with a snapshot is where that says (reserved bits read 0: R5), one that was in the middle
of an instruction whose own commit point was made is there again, and where no other context is live its registers hold its bytes; a helper started
since then is not live; what was held is gone, an unmatched arrival is withdrawn, and outside the core only its waits at counters have gone, and the
pins that no MMA needs any more (R276). R408, R421: a live context's snapshot that cannot be read makes it an activation fault. The model's own
choices that it rests on: notes/assumptions/15.md, notes/assumptions/16.md, notes/assumptions/18.md, notes/assumptions/71.md. -/
def Obligations.Segments : Prop :=
  (∀ (s t : State) (a : Act) (p : Pre) (ns : List NtStore), s.wf = true → redundant s = false → s.core.act = some a → t = commitSeg (after p) s →
     ns = s.pkg.nts ++ a.held.filterMap (fun e => match e.out with
       | .nt va bs => some { asid := asidOf s, va := va, bytes := bs, core := s.core.id, ctx := e.ctx, inst := a.inst, stamp := s.core.actCount.toNat }
       | _ => none) →
     heldNow t = [] ∧ t.core.stoHeld = [] ∧ (∀ w ∈ t.core.wins, ∀ x, w = some x → x.tagged = []) ∧
     (∀ ch ∈ t.core.chans, ∀ e ∈ ch.q, e.committed = true) ∧ (∀ e ∈ t.core.mxu.q, e.committed = true) ∧
     t.pkg.msgs = s.pkg.msgs ++ a.held.filterMap (fun e => match e.out with
       | .msg m => some { msg := { m with hdr := delivered s.core.id s.pkg.pkgId.toNat m.hdr }, src := s.core.id, ctx := e.ctx, dest := hCore m.hdr,
                          pkg := hPkg m.hdr, inst := a.inst, seq := e.seq }
       | _ => none) ∧
     (∀ x ∈ t.pkg.nts, x ∈ ns) ∧
     (s.pkg.cc = [] → s.pkg.wb = [] → (∀ e ∈ a.held, ∀ va bs, e.out ≠ .stash va bs) → (∀ w ∈ s.core.wins, ∀ x, w = some x → x.tagged = []) → t.pkg.nts = ns) ∧
     t.pkg.adds = s.pkg.adds ++ a.held.filterMap (fun e => match e.out with
       | .add va inc => some { asid := asidOf s, va := va, inc := inc, core := s.core.id, inst := a.inst, stamp := s.core.actCount.toNat }
       | _ => none) ∧
     t.pkg.sto = s.pkg.sto ++ s.core.stoHeld ∧
     (∀ h, h < 11 → (ctxAt s h).live = true → (ctxAt t h).snap = some (if h = s.core.cur then snapOf (after p t).core.ls (ctx (after p t))
       else snapOf t.core.ls (ctxAt s h)))) ∧
  (∀ (s t : State) (a : Act) (h : Nat), s.wf = true → redundant s = false → s.core.act = some a → a.retained = false → t = rollback h s →
     ((∃ x ∈ s.core.ctxs, x.live = true ∧ x.snapBad = true) → t = activationFault 0x84 s) ∧
     ((∀ x ∈ s.core.ctxs, x.live = true → x.snapBad = false) →
     heldNow t = [] ∧ t.pkg = { s.pkg with
       waiters := s.pkg.waiters.filter (fun w => w.core != s.core.id)
       skimPins := t.pkg.skimPins } ∧ (∀ l ∈ t.pkg.skimPins, l ∈ s.pkg.skimPins) ∧ t.others = s.others ∧
     (∀ m g, t.core.gang ≠ .arrived m g) ∧
     (∀ j, j < 11 → (ctxAt s j).live = true → (ctxAt s j).snap = none → (ctxAt t j).live = false) ∧
     (∀ j r, j < 11 → (ctxAt s j).live = true → (ctxAt s j).snap = some r →
       (ctxAt t j).live = true ∧ (ctxAt t j).wp.toNat = readLE r 1560 8 ∧ (ctxAt t j).flg = BitVec.ofNat 64 (readLE r 1544 8) &&& 0x1FFF1F ∧
       ((ctxAt s j).mid = none → (ctxAt t j).pc.toNat = readLE r 1536 8 ∧ (ctxAt t j).repst = BitVec.ofNat 64 (readLE r 1552 8) &&& 0xFFFFFFFF7FFFFFFE ∧
         (ctxAt t j).wait = .none ∧ (ctxAt t j).stage = 0 ∧ (ctxAt t j).longs = (ctxAt s j).snapLongs) ∧
       (∀ m, (ctxAt s j).mid = some m → (ctxAt t j).pc = m.pc ∧ (ctxAt t j).repst = m.repst ∧ (ctxAt t j).wait = m.wait ∧ (ctxAt t j).stage = m.stage ∧
         (ctxAt t j).ops = m.ops ∧ (ctxAt t j).longs = m.longs)) ∧
     (∀ j r, j < 11 → (ctxAt s j).live = true → (ctxAt s j).snap = some r → (∀ i, i < 11 → i ≠ j → (ctxAt s i).live = false) → a.nw ≤ 64 →
       (∀ n, n < a.nw → readLE t.core.ls (readLE r 1560 8 + 8 * n) 8 = match (ctxAt s j).mid with
         | some m => if n = 15 then m.w15 % 2 ^ 64 else readLE r (8 * n) 8
         | none => readLE r (8 * n) 8) ∧
       (∀ n, n < a.nv → readBytes t.core.ls (readLE r 1560 8 + 512 + 64 * n) 64 = readBytes r (512 + 64 * n) 64))))

/-- R102 to R104, R225, R239: END of the control context waits for the helpers, makes the final commit point and ends the activation with its exports;
END.P passes on what the item imports; END of a helper ends that context; ABORT ends the activation without a commit point. No context is live
afterwards. -/
def Obligations.Endings : Prop :=
  ∀ (s : State) (a : Act), s.plain → redundant s = false → s.core.act = some a →
    (∀ u, s.core.cur = 0 → helperLive s = false → atCommit s → u = commitSeg (after {}) s →
      exec .sysEnd s = .next (endAct (some (latched s)) u) ∧ (endAct (some (latched s)) u).core.act = none ∧
      (∀ h, (ctxAt (endAct (some (latched s)) u) h).live = false) ∧
      (a.stage = none → exec .sysEndP s = .next (endAct (some []) u)) ∧
      (∀ g, a.stage = some g → a.item = 0 → exec .sysEndP s = .next (endAct (some g.defaults) u)) ∧
      (∀ g vs, a.stage = some g → a.item ≠ 0 → s.core.fwd.getD ((a.item - 1) % 32) .empty = .valid (a.item - 1) a.strm vs →
        exec .sysEndP s = .next (endAct (some vs) u)) ∧
      (∀ g, a.stage = some g → a.item ≠ 0 → s.core.fwd.getD ((a.item - 1) % 32) .empty = .poison (a.item - 1) a.strm →
        exec .sysEndP s = .next (endAct none u)) ∧
      (∀ g, a.stage = some g → a.item ≠ 0 → s.core.fwd.getD ((a.item - 1) % 32) .empty = .empty →
        exec .sysEndP s = .next (block (.forward 1 0) s))) ∧
    (s.core.cur = 0 → helperLive s = true → ∃ t, exec .sysEnd s = .next t ∧ ctx t = { ctx s with wait := .joinh 0 } ∧
      t.core.act = some { a with st := .joining }) ∧
    (s.core.cur ≠ 0 → atCommit s → ∀ i ∈ [Instr.sysEnd, .sysEndP], ∃ t, exec i s = .next t ∧ t = endHelper (commitSeg (after {}) s) ∧
      (ctx t).live = false ∧ (∀ h, (ctxAt t h).wait ≠ .idle)) ∧
    (∃ t, exec .sysAbort s = .next t ∧ t = abortAct 2 s ∧ t.core.act = none ∧ (∀ h, (ctxAt t h).live = false) ∧ t.pkg.msgs = s.pkg.msgs ∧
      (∀ x ∈ t.pkg.nts, x ∈ s.pkg.nts) ∧ t.pkg.arms.length ≤ s.pkg.arms.length ∧ (∀ d ∈ t.pkg.cc, d ∈ s.pkg.cc))

/-- R106, R389: SVC of a served code waits with its arguments; an answer that Klogar can give sets W[4] and W[5] and the next instruction follows.
Here code 0 gives the identity, code 8 appends the arguments to the log, and CTRALLOC beyond the quota is refused with status 1. The model's own
choices that it rests on: notes/assumptions/40.md. -/
def Obligations.Services : Prop :=
  ∀ (s : State) (a : SvcAnswer), s.wf = true → (ctx s).longs = [] → redundant s = false →
    (∀ c : BitVec 4, c.toNat < 9 → s.plain → usable s [4, 5, 6, 7, 8, 9, 10, 11] [] →
      ∃ t, exec (.sysSvc c) s = .next t ∧ onlyCtx s t ∧ ctx t = { ctx s with wait := .svc c.toNat }) ∧
    (∀ y st v t, (ctx s).wait = .svc y → y < 9 → serve y ((List.range 8).map (fun i => regW s (4 + i))) a s = some (st, v, t) →
      t.core = s.core ∧ exec (.svcAnswer s.core.id s.core.cur a) s = .next (after {} (setW 4 v (setW 5 st t)))) ∧
    (∀ w, serve 0 w a s = some (0, a.addr % 65536 + s.pkg.pkgId.toNat * 65536, s)) ∧
    (∀ w, serve 8 w a s = some (0, 0, { s with pkg := { s.pkg with svcLog := s.pkg.svcLog ++ [(actInst s, w.flatMap (fun x => bytesLE x 8))] } })) ∧
    (∀ w, w.getD 0 0 % 16 = 0 → w.getD 0 0 < 16384 →
      (tenantOf s (asidOf s)).ctrQuota ≤ (s.pkg.ctrPages.filter (fun p => p.asid == asidOf s)).length → serve 1 w a s = some (1, 0, s)) ∧
    ((∀ y, (ctx s).wait ≠ .svc y) → exec (.svcAnswer s.core.id s.core.cur a) s = .next s)

/-! ## Messages and counters -/

/-- R182, R185 to R188, R190, R192, R193: MSG, QMSG, ITEM, REPLY and ARM hold an output with the header that the descriptor and the slot give. The
checks: a malformed descriptor is ILL with REASON 8, a slot that does not serve is PRIV, a 65th held message OUTFULL. The model's own choices that it
rests on: notes/assumptions/12.md. -/
def Obligations.Sends : Prop :=
  ∀ (p : Pre) (a b l : BitVec 4) (s : State), s.plain → redundant s = false →
    (∀ e ∈ ([(Instr.sendMsg p a b l, false, [0, 1]), (.sendQmsg p a b l, true, [0, 1]), (.sendItem p a b l, false, [2])] :
        List (Instr × Bool × List Nat)), ∀ d t0 t1, groups e.1 s p a b [] 1 2 = .ok ([d], [t0, t1]) →
      (descOk e.2.1 e.2.2 d = false → exec e.1 s = .next (takeTrap 1 (illValue 8 e.1) s)) ∧
      (descOk e.2.1 e.2.2 d = true → slotOf s d = none → exec e.1 s = .next (takeTrap 2 d s)) ∧
      (∀ x, descOk e.2.1 e.2.2 d = true → slotOf s d = some x →
        (64 ≤ heldMessages s → exec e.1 s = .next (takeTrap 15 64 s)) ∧
        (heldMessages s < 64 → leads e.1 p s (hold (.msg (buildMsg s e.2.1 x d t0 t1)))))) ∧
    (∀ x y act, groups (.sendReply p a b l) s p a b [] 1 2 = .ok ([x], y) → s.core.act = some act → x < 4096 → x / 1024 < 3 → act.replied = false →
      act.klogar = false → heldMessages s < 64 →
      ∃ m, hCore m.hdr = hCore act.trig.hdr ∧ hPkg m.hdr = hPkg act.trig.hdr ∧ hInst m.hdr = hInst act.trig.hdr ∧ hType m.hdr = x % 1024 ∧ hPri m.hdr = x / 1024 ∧
        m.t0 = BitVec.ofNat 64 (y.getD 0 0) ∧ m.t1 = BitVec.ofNat 64 (y.getD 1 0) ∧
        leads (.sendReply p a b l) p s (fun t => updAct (fun z => { z with replied := true, replySeg := some s.core.cur })
          (hold (if act.trig.req.isSome then .reply m else .msg m) t))) ∧
    (∀ va th d t0 t1 x, groups (.sendArm p a b l) s p a b [] 2 3 = .ok ([va, th], [d, t0, t1]) → va % 8 = 0 → (ctrPage s (asidOf s) va).isSome = true →
      descOk false [0, 1] d = true → slotOf s d = some x → heldMessages s < 64 →
      leads (.sendArm p a b l) p s (hold (.arm va th (buildMsg s false x d t0 t1)))) ∧
    (∀ q x d t0 t1 m, m = buildMsg s q x d t0 t1 → hInst m.hdr = x.inst % 65536 ∧ hPkg m.hdr = x.pkg % 4096 ∧ hG m.hdr = (coreInst s).gen % 16 ∧ hPri m.hdr = dPri d ∧
      m.t0 = BitVec.ofNat 64 t0 ∧ m.t1 = BitVec.ofNat 64 t1 ∧
      (dMode d = 0 → hCore m.hdr = dCore d ∧ hType m.hdr = dType d ∧ m.strm = none) ∧
      (dMode d = 1 → hCore m.hdr = x.owners.getD (ownerIndex t0 x.owners.length) 0 % 16384) ∧ (dMode d = 2 → m.strm = some (dAux d)))

/-- R183, R184, R194 to R197, R287, R288: CADD holds its add and commits; CADDR commits, adds at once and returns the value before the add; CREAD and
CTEST read a counter as a long result or as flags, and then make their acquire; a poisoned counter is UE (R407; notes/assumptions/94.md); CWAIT and
WPWAIT return the value once it is at least the threshold, and wait before that, CWAIT in the counter's waiter register. The model's own choices that
it rests on: notes/assumptions/17.md. -/
def Obligations.CounterInstructions : Prop :=
  ∀ (p : Pre) (a b l : BitVec 4) (s : State), s.plain → redundant s = false →
    (∀ va inc, groups (.sendCadd p a b l) s p a b [] 1 1 = .ok ([va], [inc]) → checkCtr s (asidOf s) va = .ok () → atCommit s →
      exec (.sendCadd p a b l) s = .next (retire p (commitSeg (after p) (hold (.add va inc) s)))) ∧
    (∀ va inc u, groups (.sendCaddr p a b l) s p a b [wA p a] 1 1 = .ok ([va], [inc]) → checkCtr s (asidOf s) va = .ok () → ctrBad s (asidOf s) va = false → atCommit s → inc < 2 ^ 64 →
      u = drainAdds s.core.id (asidOf s) va (commitSeg (after p) s) → ∃ t, exec (.sendCaddr p a b l) s = .next t ∧
      ctrVal t (asidOf s) va = min (ctrVal u (asidOf s) va + inc) (2 ^ 64 - 1) ∧ (ctx t).pc = BitVec.ofNat 64 (nextPc p s) ∧
      (l = 0 → readLE t.core.ls (wAddr s (wA p a)) 8 = ctrVal u (asidOf s) va % 2 ^ 64) ∧
      (l ≠ 0 → (ctx t).longs = [{ addr := wAddr s (wA p a), bytes := bytesLE (ctrVal u (asidOf s) va) 8, flags := none, left := l.toNat }])) ∧
    (∀ va, oneSrc (.longCread p a b l) s p a b = .ok va → checkCtr s (asidOf s) va = .ok () → ctrBad s (asidOf s) va = true →
      exec (.longCread p a b l) s = .next (takeTrap 21 va s)) ∧
    (∀ va v, oneSrc (.longCread p a b l) s p a b = .ok va → checkCtr s (asidOf s) va = .ok () → ctrBad s (asidOf s) va = false →
      s.pkg.adds.all (fun x => !(x.core == s.core.id && x.asid == asidOf s && x.va == va)) = true → v = ctrVal s (asidOf s) va →
      ∃ t, landed (nextPc p s) l (wAddr s (wA p a)) (bytesLE v 8) s t ∧ exec (.longCread p a b l) s = .next (acquireAt (ctrScope s (asidOf s) va) t)) ∧
    (∀ va v y : Word, groups (.longCtest p a b l) s p a b [] 1 1 = .ok ([va.toNat], [y.toNat]) → checkCtr s (asidOf s) va.toNat = .ok () → ctrBad s (asidOf s) va.toNat = false →
      s.pkg.adds.all (fun x => !(x.core == s.core.id && x.asid == asidOf s && x.va == va.toNat)) = true → v.toNat = ctrVal s (asidOf s) va.toNat →
      ∃ t f w, exec (.longCtest p a b l) s = .next t ∧ onlyCtx (acquireAt (ctrScope s (asidOf s) va.toNat) s) t ∧
        f.getLsbD 0 = (v == y) ∧ f.getLsbD 1 = (v - y).msb ∧ f.getLsbD 2 = y.ule v ∧ f.getLsbD 3 = v.ssubOverflow y ∧ f.getLsbD 4 = false ∧
        w = ((ctx s).flg &&& 0xFFFFFFFFFFFFFFE0) ||| f.setWidth 64 ∧
        ctx t = { (ctx s).wentTo (nextPc p s) with
          flg := if l = 0 then w else (ctx s).flg
          longs := if l = 0 then [] else [{ addr := 0, bytes := [], flags := some f, left := l.toNat }] }) ∧
    (∀ va th, groups (.longCwait p a b) s p a b [wA p a] 1 1 = .ok ([va], [th]) → checkCtr s (asidOf s) va = .ok () → ctrBad s (asidOf s) va = false →
      s.pkg.adds.all (fun x => !(x.core == s.core.id && x.asid == asidOf s && x.va == va)) = true →
      (th ≤ ctrVal s (asidOf s) va → ∃ t, wrote (nextPc p s) (wAddr s (wA p a)) (bytesLE (ctrVal s (asidOf s) va) 8) (dropWaiters s.core.cur s) t ∧
        exec (.longCwait p a b) s = .next (acquireAt (ctrScope s (asidOf s) va) t)) ∧
      (ctrVal s (asidOf s) va < th → exec (.longCwait p a b) s = .next (block (.cwait va th) (addWaiter va th s)))) ∧
    (∀ ch th v, groups (.longWpwait p a b) s p a b [wA p a] 1 1 = .ok ([ch], [th]) → ch < 4 → v = (s.core.chans.getD ch {}).chwp →
      (th ≤ v.toNat → givesReg (.longWpwait p a b) p (wA p a) v s) ∧
      (v.toNat < th → exec (.longWpwait p a b) s = .next (block (.wpwait ch th) s))) ∧
    (∀ va, va % 8 ≠ 0 → checkCtr s (asidOf s) va = .error (.trap 3 va)) ∧
    (∀ va, va % 8 = 0 → ctrPage s (asidOf s) va = none → checkCtr s (asidOf s) va = .error (.trap 2 va))

/-! ## Pushes, helpers, state objects -/

/-- R163, R180, R198 to R206: a push reads the 64-byte command at W[b]'s address and, where its fields pass their checks, puts it at the end of the
MXU queue, a copy channel or the segment's storage commands, with its pusher; a copy and a storage push note the release that they make at the commit
(R266), as a global MOUT does (R178); a failed check is MXCMD or CHFAULT with the offset of the field; in trap handling an MPUSH that is not local, or
behind one that is not, is MXBUSY; a full queue makes the context wait with what it has read. Whether a pushed MMA is linked follows
notes/assumptions/29.md, the checks of its sources notes/assumptions/82.md, and the running command counts among the places (notes/assumptions/81.md).
-/
def Obligations.Pushes : Prop :=
  ∀ (p : Pre) (a b l : BitVec 4) (s : State) (ea y : Nat) (c : Cmd), s.plain → begins s → redundant s = false → ea % 64 = 0 → ea + 64 ≤ 0x1F000 →
    mxuNames s.core ea 64 = false → sectorValid s.core ea = true → readable s ea 64 = .ok () → c = BitVec.ofNat 512 (readLE s.core.ls ea 64) →
    (groups (.sendMpush p a b l) s p a b [] 1 1 = .ok ([ea], [y]) →
      (∀ off, rejected (mxuChecks s c) = some off → exec (.sendMpush p a b l) s = .next (takeTrap 18 (mxValue 0 off (mOp c)) s)) ∧
      (rejected (mxuChecks s c) = none → (ctx s).inTrap = true → bit (mstat s.core) 5 = true ∨ mxuLocal s.core.mxu.link c = false →
        exec (.sendMpush p a b l) s = .next (takeTrap 17 (mOp c) s)) ∧
      (rejected (mxuChecks s c) = none → (ctx s).inTrap = false ∨ (bit (mstat s.core) 5 = false ∧ mxuLocal s.core.mxu.link c = true) →
        (s.core.mxu.q.length < 8 → leads (.sendMpush p a b l) p s (fun t => updCore (fun k => { k with mxu := { k.mxu with q := k.mxu.q ++ [{
          cmd := c, scale := BitVec.ofNat 64 y, ctx := s.core.cur, inst := actInst s, stamp := s.core.actCount.toNat, linked := linkedMma s.core.mxu.link c }] } })
          (if mOp c = 3 ∧ moutGlob c = true then pushRelease (moutScope s c) t else t))) ∧
        (8 ≤ s.core.mxu.q.length → exec (.sendMpush p a b l) s = .next (block .mxuRoom (keepOps [c.toNat, y] s))))) ∧
    (∀ ch, groups (.sendCpush p a b l) s p a b [] 1 1 = .ok ([ea], [y]) → y < 4 → ch = s.core.chans.getD y {} →
      (∀ off, rejected (copyChecks s ch c) = some off → exec (.sendCpush p a b l) s = .next (takeTrap 16 (chValue 0 0 off (bits c.toNat 7 0)) s)) ∧
      (rejected (copyChecks s ch c) = none → ch.q.length < 4 →
        leads (.sendCpush p a b l) p s (fun t => pushRelease (copyScope s c) (updCore (fun k => { k with
          sent := k.sent + 1
          chans := mapAt (fun x => { x with
            isOpen := x.isOpen || (!bit c.toNat 8 && bits c.toNat 7 0 != 4 && bit c.toNat 9)
            q := x.q ++ [{ cmd := c, ctx := s.core.cur, inst := actInst s, stamp := s.core.actCount.toNat, seq := s.core.sent }] }) y k.chans }) t))) ∧
      (rejected (copyChecks s ch c) = none → 4 ≤ ch.q.length → exec (.sendCpush p a b l) s = .next (block (.chanRoom y) (keepOps [y, c.toNat] s)))) ∧
    (∀ n, n = (if p.reg.isSome then wB p b else wA p a) → usable s [n] [] → p.fwd = none → regW s n = ea →
      (∀ off, rejected (storageChecks s c) = some off → exec (.sendSpush p a b l) s = .next (takeTrap 16 (chValue 1 0 off (bits c.toNat 7 0)) s)) ∧
      (∀ e : StoCmd, e = { cmd := c, core := s.core.id, ctx := s.core.cur, inst := actInst s, asid := asidOf s, stamp := s.core.actCount.toNat } →
        rejected (storageChecks s c) = none → (3 < bits c.toNat 7 0 ∨ ∃ q, look (bits c.toNat 25 16) s.pkg.qps = some q ∧ q.asid = asidOf s) →
        leads (.sendSpush p a b l) p s (fun t => pushRelease (storageScope s e) (updCore (fun k => { k with stoHeld := k.stoHeld ++ [e] }) t)))) ∧
    (∀ e, 0x1F000 < e + 64 → e % 64 = 0 → groups (.sendMpush p a b l) s p a b [] 1 1 = .ok ([e], [y]) →
      exec (.sendMpush p a b l) s = .next (takeTrap 4 e s))

/-- R209 to R211, R231: START makes the lowest free helper live at its pc and window and returns its number; JOINH goes on once the helper is over;
CPL arrives, and the last arrival couples every member of the mask, each going on after the leader's CPL. R129, R214, R216, R380: IINV takes the words
of the range out of the instruction caches of the cluster; PURGE, past its commit point, starts the marks of every core of the placement and waits,
and at its end the previous version counts as purged; SOPEN of an object in the layout of the running version gives the address of its data. The
model's own choices that it rests on: notes/assumptions/62.md, notes/assumptions/66.md. -/
def Obligations.Helpers : Prop :=
  (∀ (p : Pre) (a b : BitVec 4) (s : State), s.plain →
     (∀ x w h, twoSrc (.xferStart p a b) s p a b = .ok (x, w) → x % 2 = 0 → checkWp s w = .ok () → begins s → freeHelper s = some h → (ctx s).live = true →
       ∃ t u, exec (.xferStart p a b) s = .next t ∧ wrote (nextPc p s) (wAddr s (wA p a)) (bytesLE h 8) u t ∧
         u = setCtxAt h (fun _ => {
           live := true
           pc := BitVec.ofNat 64 x
           wp := BitVec.ofNat 64 w
           flg := 0x80C00
           firstSeg := true
           startPc := BitVec.ofNat 64 x
           startWp := BitVec.ofNat 64 w
           modv := BitVec.ofNat 16 (match s.core.act with | some x => x.vtag | none => 0) }) s ∧ 1 ≤ h ∧ h ≤ 10 ∧ (ctxAt s h).live = false) ∧
     (∀ x w, twoSrc (.xferStart p a b) s p a b = .ok (x, w) → x % 2 = 0 → checkWp s w = .ok () → begins s → freeHelper s = none →
       exec (.xferStart p a b) s = .next (block .slot (keepOps [x, w] s))) ∧
     (∀ h, oneSrcNoDst (.xferJoinh p b) s p b = .ok h → h ≤ 10 → (h = 0 ∨ h ≠ s.core.cur) →
       ((h ≠ 0 → (ctxAt s h).live = false) → (h = 0 → ∀ j, j < 11 → j ≠ 0 → j ≠ s.core.cur → (ctxAt s j).live = false) →
         goesTo (.xferJoinh p b) (nextPc p s) s) ∧
       (h ≠ 0 → (ctxAt s h).live = true → exec (.xferJoinh p b) s = .next (block (.joinh h) s))) ∧
     (∀ d, oneSrcNoDst (.xferCpl p b) s p b = .ok d → d < 2 ^ 32 → d.testBit (s.core.id % 16) = true → 2 ≤ (maskCores s.core.id (d % 65536)).length →
       s.core.cur = 0 → redundant s = false →
       (∀ j ∈ maskCores s.core.id (d % 65536), j ≠ s.core.id → ∃ x, (coreOf s j).act = some x ∧ x.inst = actInst s) →
       ((∀ j, j < 16 → 16 * clusterOf s.core.id + j ≠ s.core.id → (coreOf s (16 * clusterOf s.core.id + j)).gang = .alone) →
         exec (.xferCpl p b) s = .next (block .cpl { s with core := { s.core with gang := .arrived (BitVec.ofNat 16 (d % 65536)) (BitVec.ofNat 16 (d / 65536)) } })) ∧
       ((∀ j, j < 16 → 16 * clusterOf s.core.id + j ≠ s.core.id → 
           (coreOf s (16 * clusterOf s.core.id + j)).gang = .arrived (BitVec.ofNat 16 (d % 65536)) (BitVec.ofNat 16 (d / 65536)) ∨
             (16 * clusterOf s.core.id + j ∉ maskCores s.core.id (d % 65536) ∧ (coreOf s (16 * clusterOf s.core.id + j)).gang = .alone)) →
         ∃ t, exec (.xferCpl p b) s = .next t ∧ ∀ j ∈ maskCores s.core.id (d % 65536),
           (coreOf t j).gang = .coupled (BitVec.ofNat 16 (d % 65536)) (BitVec.ofNat 16 (d / 65536)) ∧
           ((∀ i ∈ maskCores s.core.id (d % 65536), s.core.id ≤ i) → ((coreOf t j).ctxs.getD 0 {}).pc = BitVec.ofNat 64 (nextPc p s))))) ∧
  (∀ (p : Pre) (a b l : BitVec 4) (s : State), s.plain →
     (∀ f lo n, names s [wA p a, wB p b] [] = .ok () → forwarded (.xferIinv p a b) s (some (wB p b)) none = .ok f →
       reads s ([wA p a] ++ unreplaced f [wB p b] []) [] = .ok () → lo = regW s (wA p a) → n = srcB s f (wB p b) → lo < 2 ^ 56 →
       ∃ t, exec (.xferIinv p a b) s = .next t ∧ standsAt (nextPc p s) s t ∧ t.pkg = s.pkg ∧ t.core.ls = s.core.ls ∧
         (∀ k, clusterOf k = clusterOf s.core.id → ∀ e, e ∈ (coreOf t k).icache ↔
           e ∈ (coreOf s k).icache ∧ ¬(0x100000 < n ∨ (n ≠ 0 ∧ e.1 = asidOf s ∧ e.2.1 < lo + n ∧ lo < e.2.1 + 2))) ∧
         (∀ k, clusterOf k ≠ clusterOf s.core.id → coreOf t k = coreOf s k)) ∧
     (∀ v x u, oneSrcNoDst (.xferPurge p b) s p b = .ok v → look (actInst s) s.pkg.insts = some x → v < 2 ^ 16 → (coreInst s).previous = some v →
       (coreInst s).dead.contains v = false → (coreInst s).newest ≠ some v → x.placement.all (fun k => purgeable (instOn (coreOf s k) (actInst s))) = true →
       ((look x.asid s.pkg.tenants).getD {}).upgrade = true → atCommit s → u = releaseAt false 1 (commitSeg (after p) s) →
       exec (.xferPurge p b) s = .next (keepOps [v] (holdMid (if backsOpen u then block .accept (setStage 2 u)
         else setStage 4 (block .purge (startPurge (actInst s) v x u)))))) ∧
     (∀ x, look (actInst s) s.pkg.insts = some x → (ctx s).stage = 4 → redundant s = false →
       ∃ t, exec (.xferPurge p b) s = .next t ∧ (ctx t).pc = BitVec.ofNat 64 (nextPc p s) ∧ (ctx t).wait = .none ∧
         (look (actInst s) t.pkg.insts).map (·.purged) = some true ∧ t.core.ls = s.core.ls) ∧
     (∀ h v ty tag conv, oneSrc (.longSopen p a b l) s p a b = .ok h → h % 8 = 0 → h + 8 ≤ 0x1F000 → mxuNames s.core h 8 = false → sectorValid s.core h = true →
       readable s h 8 = .ok () → readLE s.core.ls h 8 = tag + ty * 65536 → tag < 65536 → ty < 65536 → runningVersion s = some v →
       v.states.find? (fun x => x.1 == ty) = some (ty, tag, conv) →
       givesLong (.longSopen p a b l) p l (wAddr s (wA p a)) (bytesLE (h + 8) 8) s s))

/-! ## The MXU, copy channels, storage -/

/-- R59, R62 to R68, R165 to R168: one K step of an MMA adds to each element (r, j) of the accumulator the products of row r of A and column j of B.
In an i32 accumulator the sum is taken modulo 2^32; here B holds i8 bytes, codes of the table (lut4, the low nibble first) or bit planes. In a
floating-point accumulator the products of each chunk, with their block scales, are added exactly, scaled by the command's pair and added with one
rounding in RNE (the sign of an exact zero sum is notes/assumptions/22.md); the chunk has 1, 4 or 16 products. R172, R173: the elements that the mask
block names, which MOUT masks, in its modes none, causal and tree. -/
def Obligations.MmaStep : Prop :=
  (∀ (c : Cmd) (scale : Word) (lut : BitVec 128) (a b : Tile) (acc : List Nat) (r j : Nat), a.bytes.length = 256 → r < 16 → j < 16 →
    (mOp c = 0x18 → b.bytes.length = 256 → BitVec.ofNat 32 ((stepTile c scale lut a b acc).1.getD (16 * r + j) 0) = BitVec.ofNat 32 (acc.getD (16 * r + j) 0) +
      (List.range 16).foldl (fun t k => t + (a.bytes.getD (16 * r + k) 0).signExtend 32 * (b.bytes.getD (16 * k + j) 0).signExtend 32) 0) ∧
    (mOp c = 0x1C → b.bytes.length = 128 → BitVec.ofNat 32 ((stepTile c scale lut a b acc).1.getD (16 * r + j) 0) = BitVec.ofNat 32 (acc.getD (16 * r + j) 0) +
      (List.range 16).foldl (fun t k => t + (a.bytes.getD (16 * r + k) 0).signExtend 32 *
        (lutEntry lut ((b.bytes.getD ((16 * k + j) / 2) 0).toNat / 16 ^ (j % 2) % 16)).signExtend 32) 0) ∧
    (mOp c = 0x19 → BitVec.ofNat 32 ((stepTile c scale lut a b acc).1.getD (16 * r + j) 0) = BitVec.ofNat 32 (acc.getD (16 * r + j) 0) +
      (List.range 16).foldl (fun t k => t + (a.bytes.getD (16 * r + k) 0).signExtend 32 * BitVec.ofInt 32 (bpValue b.bytes (mmaPlanes c) (16 * k + j))) 0)) ∧
  (∀ (c : Cmd) (scale : Word) (lut : BitVec 128) (a b : Tile) (acc : List Nat) (r j n : Nat) (x y : List FV) (ss ea eb : FV), isMma (mOp c) = true → mmaAcc (mOp c) ≠ 1 →
    r < 16 → j < 16 → x = tileVals (mmaA (mOp c)) (mmaPlanes c) lut a.bytes → y = tileVals (mmaB (mOp c)) (mmaPlanes c) lut b.bytes →
    x.length = 256 → y.length = 256 → ss = mulX (fdec f32 (scale.toNat % 2 ^ 32)) (fdec f32 (scale.toNat / 2 ^ 32)) →
    ea = (if mmaBscl c then blockScale (a.scales.getD r 0).toNat else .fin false 1 0) →
    eb = (if mmaBscl c then blockScale (b.scales.getD j 0).toNat else .fin false 1 0) →
    n = (if mOp c ≤ 0x13 then 1 else if mOp c = 0x1A ∨ mOp c = 0x1B then 16 else 4) →
    (stepTile c scale lut a b acc).1.getD (16 * r + j) 0 = (List.range (16 / n)).foldl (fun v i =>
      chunkF (if mOp c = 0x10 then f64 else f32) ss v ((List.range n).map (fun k =>
        mulX (mulX (x.getD (16 * r + (n * i + k)) (.fin false 0 0)) (y.getD (16 * (n * i + k) + j) (.fin false 0 0))) (mulX ea eb)))) (acc.getD (16 * r + j) 0)) ∧
  (∀ (f : Fmt) (ss : FV) (v : Nat) (ps : List FV),
    (∀ p, ps = [p] → chunkF f ss v ps = (ffma f 0 false (fdec f v) (mulX ss p) (.fin false 1 0)).val) ∧
    (ps.length ≠ 1 → chunkF f ss v ps = (ffma f 0 false (fdec f v) (mulX ss (ps.foldl addX (.fin false 0 0))) (.fin false 1 0)).val)) ∧
  (∀ (mask : Cmd) (r j : Nat) (t : Int), r < 16 → t = sv (fld mask 127 96) 32 + j - sv (fld mask 95 64) 32 →
    (fld mask 9 8 = 0 → masked mask r j = false) ∧
    (fld mask 9 8 = 1 → masked mask r j = decide ((r : Int) < t)) ∧
    (fld mask 9 8 = 2 → (t < 0 → masked mask r j = false) ∧ (0 ≤ t → t < 16 → masked mask r j = !mask.toNat.testBit (128 + 16 * r + t.toNat)) ∧
      (16 ≤ t → masked mask r j = true)))

/-- R162, R164, R168 to R178: what the head of the MXU queue does. MMA begins with its accumulator read from its home, or zero, then takes one K step
of its tiles each time, the last of which writes the home and ends it; MZERO clears its home, MMASK and MLINK load their parameter blocks, MNOP does
nothing, MSIG sends its add, MOUT writes the rows it converts. Each completed command leaves the queue and ends IDLEs. R312: a command that a
secondary pushed makes no effect outside its core. R178, R180, R407: where MXU commands wait or end: one with effects outside the core waits for its
segment's commit, a poisoned home ends it with UE, a neighbour's tile with another opcode empties the queue with MXCMD, which pends for the activation
that pushed the command, the rectangle waiting for its repair; a head whose queue entry cannot be read ends with UE. Pins that no command needs any
more go (R276). The model's own choices that it rests on: notes/assumptions/24.md, notes/assumptions/29.md, notes/assumptions/70.md. -/
def Obligations.MxuCommands : Prop :=
  (∀ (s : State) (e : MxuCmd) (rest : List MxuCmd), s.wf = true → s.core.mxu.q = e :: rest → e.bad = false → s.core.halted = false → (e.begun = false → mxuGated e = true → e.committed = true) →
     (∀ n a, isMma (mOp e.cmd) = true → e.begun = false → n = accSize (mmaAcc (mOp e.cmd)) → a = fld e.cmd 95 64 →
       (e.cmd.toNat.testBit 8 = true ∨ poisonAt s.core a (256 * n) = none) →
       exec (.mma s.core.id) s = .next (updMxu (fun m => { m with q := { e with
         begun := true
         acc := (List.range 256).map (fun i => if e.cmd.toNat.testBit 8 then 0 else readLE s.core.ls (a + n * i) n) } :: rest }) s)) ∧
     (∀ x y r, isMma (mOp e.cmd) = true → e.begun = true → nextTile s.core e false = some x → nextTile s.core e true = some y → x.bad = none → y.bad = none →
       (mmaSrc e.cmd false = 2 → x.tag = mmaTag e.cmd) → (mmaSrc e.cmd true = 2 → y.tag = mmaTag e.cmd) → r = stepTile e.cmd e.scale s.core.lut x y e.acc →
       ∃ t, exec (.mma s.core.id) s = .next t ∧ t.pkg = s.pkg ∧
         (e.step + 1 < mmaKt e.cmd → t.core.mxu.q = { e with acc := r.1, wrapped := e.wrapped || r.2, step := e.step + 1 } :: rest ∧ t.core.ls = s.core.ls) ∧
         (mmaKt e.cmd ≤ e.step + 1 → t.core.mxu.q = rest ∧
           (∀ i, i < 256 → readLE t.core.ls (fld e.cmd 95 64 + accSize (mmaAcc (mOp e.cmd)) * i) (accSize (mmaAcc (mOp e.cmd))) =
             r.1.getD i 0 % 256 ^ accSize (mmaAcc (mOp e.cmd))) ∧
           (∀ h, (ctxAt t h).wait ≠ .idle))) ∧
     (isMma (mOp e.cmd) = true → e.begun = true → (∀ b x, mmaSrc e.cmd b = 2 → nextTile s.core e b = some x → x.tag = mmaTag e.cmd) →
       (nextTile s.core e false = none ∨ nextTile s.core e true = none) → exec (.mma s.core.id) s = .next s) ∧
     (∀ n, mOp e.cmd = 1 → n = (if e.cmd.toNat.testBit 8 then 2048 else 1024) →
       ∃ t, exec (.mzero s.core.id) s = .next t ∧ t.core.mxu.q = rest ∧ readBytes t.core.ls (fld e.cmd 95 64) n = List.replicate n 0#8 ∧
         (∀ x, x < fld e.cmd 95 64 ∨ fld e.cmd 95 64 + n ≤ x → memRead t.core.ls x = memRead s.core.ls x) ∧ t.pkg = s.pkg) ∧
     (mOp e.cmd = 2 → exec (.mmask s.core.id) s = .next (updCore endIdle (updMxu (fun m => { m with q := rest, mask := e.cmd }) s))) ∧
     (mOp e.cmd = 5 → exec (.mlink s.core.id) s = .next (updCore endIdle (updMxu (fun m => { m with q := rest, link := e.cmd }) s))) ∧
     (mOp e.cmd = 6 → exec (.mnop s.core.id) s = .next (updCore endIdle (updMxu (fun m => { m with q := rest }) s))) ∧
     (mOp e.cmd = 4 → e.second = true → exec (.msig s.core.id) s = .next (updCore endIdle (updMxu (fun m => { m with q := rest }) s))) ∧
     (mOp e.cmd = 4 → e.second = false → ∃ t, exec (.msig s.core.id) s = .next t ∧ t.core = (updCore endIdle (updMxu (fun m => { m with q := rest }) s)).core ∧
       t.pkg = { s.pkg with adds := s.pkg.adds ++ [{
         asid := asidOfInst s e.inst, va := fld e.cmd 127 64, inc := fld e.cmd 191 128, core := s.core.id, inst := e.inst, stamp := e.stamp }] }) ∧
     (∀ n size row, mOp e.cmd = 3 → n = accSize (fld e.cmd 17 16) → size = outSize (fld e.cmd 27 24) → poisonAt s.core (fld e.cmd 95 64) (256 * n) = none →
       row = (fun r => (List.range 16).flatMap (fun j => bytesLE (outElem e.cmd s.core.mxu.mask
         ((List.range 256).map (fun i => readLE s.core.ls (fld e.cmd 95 64 + n * i) n)) r j).val size)) →
       (moutGlob e.cmd = true → e.second = true → ∃ t, exec (.mout s.core.id) s = .next t ∧ t.core.mxu.q = rest ∧ t.pkg = s.pkg) ∧
       (moutGlob e.cmd = true → e.second = false → moutFault s e = none → ∃ t, exec (.mout s.core.id) s = .next t ∧ t.core.mxu.q = rest ∧
         t.pkg.mem = ((List.range 16).foldl (fun u r =>
           homeBytes (asidOfInst s e.inst) (fld e.cmd 191 128 + r * fld e.cmd 223 192) (row r) u) s).pkg.mem) ∧
       (moutGlob e.cmd = false → 16 * size ≤ fld e.cmd 223 192 → ∃ t, exec (.mout s.core.id) s = .next t ∧ t.core.mxu.q = rest ∧ t.pkg = s.pkg ∧
         (e.cmd.toNat.testBit 10 = false → ∀ r, r < 16 → readBytes t.core.ls (fld e.cmd 191 128 + r * fld e.cmd 223 192) (16 * size) = row r) ∧
         (e.cmd.toNat.testBit 10 = true → readBytes t.core.ls (fld e.cmd 95 64) (256 * n) = List.replicate (256 * n) 0#8)))) ∧
  (∀ (s : State) (e : MxuCmd) (rest : List MxuCmd), s.core.mxu.q = e :: rest → s.core.halted = false →
     (e.begun = false → e.committed = false → mxuGated e = true →
       exec (.mma s.core.id) s = .next s ∧ exec (.mout s.core.id) s = .next s ∧ exec (.msig s.core.id) s = .next s) ∧
     (∀ p, e.bad = true → p (mOp e.cmd) = true → (e.begun = true ∨ mxuGated e = false ∨ e.committed = true) → ∀ f, mxuEvent s.core.id p f s = .next (mxuUe e 0xFF0000000001F800 s)) ∧
     (∀ x, e.bad = false → isMma (mOp e.cmd) = true → e.begun = false → (mxuGated e = true → e.committed = true) → e.cmd.toNat.testBit 8 = false →
       poisonAt s.core (fld e.cmd 95 64) (256 * accSize (mmaAcc (mOp e.cmd))) = some x →
       exec (.mma s.core.id) s = .next (pend s.core.id e.stamp e.inst 21 (0xFF00000000000000 + x) 2
         (trimPins (updCore endIdle (updMxu (fun m => { m with q := rest, skimA := [], skimB := [] }) s))))) ∧
     (∀ b x, e.bad = false → isMma (mOp e.cmd) = true → e.begun = true → nextTile s.core e b = some x → mmaSrc e.cmd b = 2 →
       x.tag % 256 ≠ mmaTag e.cmd % 256 → ∃ t, exec (.mma s.core.id) s = .next t ∧ t.core.mxu.q = [] ∧ t.core.mxu.broken = true ∧
         (∀ z, s.core.act = some z → owns s.core e.stamp e.inst = true →
           t.core.act = some { z with pending := z.pending ++ [{ code := 18, value := 2 ^ 16 + mOp e.cmd % 256 }] })))

/-- R270, R271, R274, R276, R285, R273: a tile that a neighbour hands on arrives where there is room, in order; the skimmer fetches the next tile of
an edge operand from home memory once its lines can be pinned, at most four of a set, each of them once; a pre-empted core at rest writes back the
partial sums of a begun MMA; the repair of a rectangle empties the queues of its members, and their operand buffers with them
(notes/assumptions/98.md), loads their link settings again and leaves an error record. Sets and pins are those of notes/assumptions/26.md. -/
def Obligations.OperandFlow : Prop :=
  ∀ s : State, s.wf = true →
    (∀ (k : Nat) (j : Nat) (t : Tile), j ≠ k → nextArrival k false s = some (j, t) → ∃ u, exec (.operandTileArrival k false) s = .next u ∧
      (coreOf u k).mxu.west = (coreOf s k).mxu.west ++ [t] ∧ (coreOf s j).mxu.east = t :: (coreOf u j).mxu.east ∧ u.pkg = s.pkg) ∧
    (∀ (k : Nat) (j : Nat) (t : Tile), j ≠ k → nextArrival k true s = some (j, t) → ∃ u, exec (.operandTileArrival k true) s = .next u ∧
      (coreOf u k).mxu.north = (coreOf s k).mxu.north ++ [t] ∧ (coreOf s j).mxu.south = t :: (coreOf u j).mxu.south ∧ u.pkg = s.pkg) ∧
    (∀ op t ps, skimReady s op = some (t, ps) → ∃ u e va n, exec (.skimmerFetch s.core.id op) s = .next u ∧ skimNext s.core op = some (e, va, n) ∧
      homeRead s (asidOfInst s e.inst) va n = some t.bytes ∧ t.tag = mmaTag e.cmd ∧ (∀ l ∈ linesAt s (asidOfInst s e.inst) va n, l ∈ ps) ∧
      u.core.mxu = (if op then { s.core.mxu with skimB := s.core.mxu.skimB ++ [t] } else { s.core.mxu with skimA := s.core.mxu.skimA ++ [t] }) ∧
      u.core.ls = s.core.ls ∧ u.pkg.mem = s.pkg.mem ∧ (∀ l, l ∈ u.pkg.skimPins ↔ l ∈ ps ∧ ∃ k ∈ coreIds s, fetchesLine u (coreOf u k) l = true)) ∧
    (∀ op, skimReady s op = none → exec (.skimmerFetch s.core.id op) s = .next s) ∧
    (∀ (ls ps qs : List Nat), pinLines ls ps = some qs → (∀ l ∈ ls, l ∈ qs) ∧ (ps.Nodup → qs.Nodup) ∧
      ∀ x, (ps.filter (fun l => Config.l2Set l == x)).length ≤ 4 → (qs.filter (fun l => Config.l2Set l == x)).length ≤ 4) ∧
    (∀ a j e rest, s.core.act = some a → a.st = .preempted j → s.core.mxu.q = e :: rest → e.begun = true → isMma (mOp e.cmd) = true → mxuAtRest s.core = true →
      e.acc.length = 256 → ∃ t, exec (.mxuSave s.core.id) s = .next t ∧ t.core.mxu.skimA = [] ∧ t.core.mxu.skimB = [] ∧ t.core.mxu.q = s.core.mxu.q ∧
        ∀ i, i < 256 → readLE t.core.ls (fld e.cmd 95 64 + accSize (mmaAcc (mOp e.cmd)) * i) (accSize (mmaAcc (mOp e.cmd))) =
          e.acc.getD i 0 % 256 ^ accSize (mmaAcc (mOp e.cmd))) ∧
    (∀ inst x r, s.core.mxu.broken = true → s.core.resident = some inst → look inst s.pkg.insts = some x → rectOf x.rects s.core.id = some r →
      ∃ t, exec (.rectangleRepair s.core.id) s = .next t ∧
        (∀ j ∈ rectCores r, (coreOf t j).mxu.q = [] ∧ (coreOf t j).mxu.broken = false ∧ (coreOf t j).mxu.link = linkIn r j ∧ (coreOf t j).mxu.west = [] ∧
          (coreOf t j).mxu.north = []) ∧
        (∃ e, t.pkg.errs = s.pkg.errs ++ [e] ∧ e.cause = 12 ∧ e.core = s.core.id ∧ e.detail = r.origin))

/-- R199 to R203, R265: the head of a channel begins once it may; an inbound command delivers 64 bytes at a time into the local store, each advancing
CHWP and ending IDLEs, an outbound one has 64 bytes accepted at a time at their home; the last sector ends it; with SECTR each sector is counted.
Before an inbound sector is delivered a byte of it may read as the old value or as the delivered one, and a source byte of an outbound one is copied
old or new (R7): a running command takes such choices between its sectors. CSIG sends its add when its segment has committed. A command whose queue
entry cannot be read stops the channel. R302: a sector of an inbound command lands in the local store of the secondary of its pusher's activation too,
and CHWP advances there, also after that activation's end; the secondary's own queue and the other bytes of its local store stay. The model's own
choices that it rests on: notes/assumptions/23.md, notes/assumptions/32.md. -/
def Obligations.ChannelCommands : Prop :=
  ((∀ (s : State) (ch : Nat) (c : CopyCmd) (rest : List CopyCmd), s.wf = true → c.seconds = [] → (chanOf s.core ch).q = c :: rest → c.bad = false → ch < s.core.chans.length →
     s.core.halted = false → preempted s.core = false →
     (c.begun = false → (copyInbound c.cmd = true ∨ c.committed = true) →
       ∀ e ∈ [((1 : Nat), Instr.ccopy s.core.id ch), (2, .ccopy2 s.core.id ch), (3, .cfill s.core.id ch)], fld c.cmd 7 0 = e.1 →
         ∃ t, exec e.2 s = .next t ∧ (chanOf t.core ch).q = { c with begun := true } :: rest ∧ t.pkg = s.pkg ∧ t.core.ls = s.core.ls ∧
           (chanOf t.core ch).chwp = (if copyInbound c.cmd && c.cmd.toNat.testBit 9 then 0 else (chanOf s.core ch).chwp)) ∧
     (c.begun = true → copyInbound c.cmd = true → copyRemote c.cmd = none →
       ∀ bs, (fld c.cmd 7 0 = 3 ∧ bs = fillBytes c.cmd ∨ fld c.cmd 7 0 ≠ 3 ∧ homeRead s (asidOfInst s c.inst) (copyVa c.cmd c.done) 64 = some bs ∧
           homePoisoned s (asidOfInst s c.inst) (copyVa c.cmd c.done) 64 = false) →
         ∃ t, exec (.sectorDelivery s.core.id ch) s = .next t ∧ readBytes t.core.ls (copyLs c.cmd c.done) 64 = withEarly c (copyLs c.cmd c.done) bs ∧
           (c.early = [] → readBytes t.core.ls (copyLs c.cmd c.done) 64 = bs) ∧
           (∀ x, x < copyLs c.cmd c.done ∨ copyLs c.cmd c.done + 64 ≤ x → memRead t.core.ls x = memRead s.core.ls x) ∧
           (chanOf t.core ch).chwp = (chanOf s.core ch).chwp + 64 ∧
           (chanOf t.core ch).q = (if c.done + 1 < copySectors c.cmd then { c with done := c.done + 1, early := [] } :: rest else rest) ∧
           (∀ h, (ctxAt t h).wait ≠ .idle) ∧
           t.pkg.adds = s.pkg.adds ++ (if c.cmd.toNat.testBit 10 then
             [{ asid := asidOfInst s c.inst, va := fld c.cmd 383 320, inc := 1, core := s.core.id, inst := c.inst, stamp := c.stamp }] else [])) ∧
     (c.begun = true → copyInbound c.cmd = false → fld c.cmd 7 0 ≠ 4 → copyRemote c.cmd = none →
       writableRange s (asidOfInst s c.inst) (copyVa c.cmd c.done) 64 = true → (fld c.cmd 7 0 ≠ 3 → poisonAt s.core (copyLs c.cmd c.done) 64 = none) →
         ∃ t, exec (.sectorAccepted s.core.id ch) s = .next t ∧ t.core.ls = s.core.ls ∧
           t.pkg.mem = (homeBytes (asidOfInst s c.inst) (copyVa c.cmd c.done)
             (if fld c.cmd 7 0 = 3 then fillBytes c.cmd else sourceBytes s c (copyLs c.cmd c.done)) s).pkg.mem ∧
           (c.olds = [] → sourceBytes s c (copyLs c.cmd c.done) = readBytes s.core.ls (copyLs c.cmd c.done) 64) ∧
           (chanOf t.core ch).q = (if c.done + 1 < copySectors c.cmd then { c with done := c.done + 1, early := [] } :: rest else rest) ∧
           t.pkg.adds = s.pkg.adds ++ (if c.cmd.toNat.testBit 10 then
             [{ asid := asidOfInst s c.inst, va := fld c.cmd 383 320, inc := 1, core := s.core.id, inst := c.inst, stamp := c.stamp }] else [])) ∧
     (c.begun = true → ∀ e ∈ [((1 : Nat), Instr.ccopy s.core.id ch), (2, .ccopy2 s.core.id ch), (3, .cfill s.core.id ch)], fld c.cmd 7 0 = e.1 →
       ∃ t, exec e.2 s = .next t ∧ t.pkg = s.pkg ∧ (chanOf t.core ch).chwp = (chanOf s.core ch).chwp ∧
         (∀ x, x < copyLs c.cmd c.done ∨ copyLs c.cmd c.done + 64 ≤ x → memRead t.core.ls x = memRead s.core.ls x) ∧
         (copyInbound c.cmd = true → (∃ l, (chanOf t.core ch).q = { c with early := l } :: rest) ∧
           ∀ i, i < 64 → memRead t.core.ls (copyLs c.cmd c.done + i) = memRead s.core.ls (copyLs c.cmd c.done + i) ∨
             ∃ bs, nextSector s c = some bs ∧ memRead t.core.ls (copyLs c.cmd c.done + i) = bs.getD i 0) ∧
         (copyInbound c.cmd = false → t.core.ls = s.core.ls ∧ ∃ l, (chanOf t.core ch).q = { c with olds := l } :: rest ∧
           ∀ x ∈ l, x.2 = memRead s.core.ls x.1 ∨ x ∈ c.olds)) ∧
     (c.begun = false → c.committed = true → fld c.cmd 7 0 = 4 → copyRemote c.cmd = none →
       ∃ t, exec (.csig s.core.id ch) s = .next t ∧ (chanOf t.core ch).q = rest ∧
         t.pkg = { s.pkg with adds := s.pkg.adds ++ [{
           asid := asidOfInst s c.inst, va := fld c.cmd 383 320, inc := fld c.cmd 447 384, core := s.core.id, inst := c.inst, stamp := c.stamp }] }) ∧
     (c.begun = false → c.committed = false → copyInbound c.cmd = false →
       exec (.ccopy s.core.id ch) s = .next s ∧ exec (.ccopy2 s.core.id ch) s = .next s ∧ exec (.cfill s.core.id ch) s = .next s ∧ exec (.csig s.core.id ch) s = .next s) ∧
     (∀ d, c.begun = true → copyInbound c.cmd = true → fld c.cmd 7 0 ≠ 3 → copyRemote c.cmd = some d → look d s.pkg.routes = none → c.early = [] →
       ∃ t, exec (.sectorDelivery s.core.id ch) s = .next t ∧ (chanOf t.core ch).q = [] ∧ (chanOf t.core ch).isOpen = false ∧ t.core.ls = s.core.ls)) ∧
   (∀ (s : State) (ch : Nat) (c : CopyCmd) (rest : List CopyCmd), s.wf = true → c.seconds = [] → (chanOf s.core ch).q = c :: rest → c.bad = true → ch < s.core.chans.length →
     s.core.halted = false → preempted s.core = false → (c.begun = true ∨ copyInbound c.cmd = true ∨ c.committed = true) →
     ∀ e ∈ [((1 : Nat), Instr.ccopy s.core.id ch), (2, .ccopy2 s.core.id ch), (3, .cfill s.core.id ch)], fld c.cmd 7 0 = e.1 →
       ∃ t, exec e.2 s = .next t ∧ (chanOf t.core ch).q = [] ∧ (chanOf t.core ch).isOpen = false ∧ t.core.ls = s.core.ls)) ∧
  (∀ (s : State) (ch j : Nat) (c : CopyCmd) (rest : List CopyCmd) (bs : List Byte), s.wf = true → c.seconds = [j] → j ≠ s.core.id → (chanOf s.core ch).q = c :: rest → c.bad = false → c.early = [] →
     ch < s.core.chans.length → ch < (coreOf s j).chans.length → c.begun = true → copyInbound c.cmd = true → copyRemote c.cmd = none → fld c.cmd 7 0 ≠ 4 →
     (fld c.cmd 7 0 = 3 ∧ bs = fillBytes c.cmd ∨ fld c.cmd 7 0 ≠ 3 ∧ homeRead s (asidOfInst s c.inst) (copyVa c.cmd c.done) 64 = some bs ∧
       homePoisoned s (asidOfInst s c.inst) (copyVa c.cmd c.done) 64 = false) →
     ∃ t, exec (.sectorDelivery s.core.id ch) s = .next t ∧ readBytes t.core.ls (copyLs c.cmd c.done) 64 = bs ∧
       readBytes (coreOf t j).ls (copyLs c.cmd c.done) 64 = bs ∧ (chanOf (coreOf t j) ch).chwp = (chanOf (coreOf s j) ch).chwp + 64 ∧
       (chanOf (coreOf t j) ch).q = (chanOf (coreOf s j) ch).q ∧
       (∀ x, x < copyLs c.cmd c.done ∨ copyLs c.cmd c.done + 64 ≤ x → memRead (coreOf t j).ls x = memRead (coreOf s j).ls x))

/-- R204, R207, R208, R395 to R398: what the storage engines do with command n once it stands in its ring and its translations are there. NRD reads
blocks, checks their checksum before it writes a byte, and expands them where DK says so; NWR writes blocks, durable at once with FUA; NFL makes the
namespace durable; ZDEC expands a range of memory, CSUM sums one. The completion writes the status slot and adds 1 to the counter. No namespace is
ESTAT 1, an unsupported format 7, a frame that does not expand or is followed by other bytes 3, a length other than OLEN 4 (an LZ4 block that goes on
past OLEN among them), a poisoned dictionary 6; a command that is not ready waits, and no timeout takes it. The model's own choices that it rests on:
notes/assumptions/30.md, notes/assumptions/31.md, notes/assumptions/35.md. -/
def Obligations.StorageCommands : Prop :=
  (∀ (s v : State) (n : Nat) (e : StoCmd), s.pkg.sto[n]? = some e → stoReady s n = true → v = creameryView s →
    ∀ (fin : Nat → Nat → Nat → (State → State) → Host.Outcome State Fault Refusal), fin = (fun estat bytes sum f => .next (asCreamery (fun t => let u := f t
      { u with pkg := { u.pkg with
        sto := removeAt n u.pkg.sto
        stoDone := u.pkg.stoDone ++ [{ cmd := e, estat := estat, nvst := 0, bytes := bytes, sum := sum }] } }) s)) →
    ∀ (fails : Instr → Nat → Prop), fails = (fun i k => ∃ t d, exec i s = .next t ∧ t.pkg.sto = removeAt n s.pkg.sto ∧ t.pkg.stoDone = s.pkg.stoDone ++ [d] ∧
      d.cmd = e ∧ d.estat = k ∧ t.pkg.spaces = s.pkg.spaces) →
    (∀ x bs sum, stoOp e = 1 → namespaceOf s e = some x → x.ok = true → blocksExist x e = true → bs = readBytes x.data (blockSpan x e).1 (blockSpan x e).2 →
      sum = (if stoCk e = 0 then 0 else checksum (stoCk e) bs) →
      (stoCk e ≠ 0 → sum ≠ fld e.cmd 447 384 → exec (.nrd n) s = fin 2 0 sum id) ∧
      (stoCk e = 0 ∨ sum = fld e.cmd 447 384 → stoDk e = 0 → exec (.nrd n) s = fin 0 bs.length sum (homeWrite e.asid (stoBuf e) bs)) ∧
      (stoCk e = 0 ∨ sum = fld e.cmd 447 384 → stoDk e ≠ 0 →
        (homePoisoned v e.asid (stoDictSpan e).1 (stoDictSpan e).2 = true → fails (.nrd n) 6) ∧
        (homePoisoned v e.asid (stoDictSpan e).1 (stoDictSpan e).2 = false →
          (expanded v e bs = none → fails (.nrd n) 3) ∧
          (∀ out r, expanded v e bs = some (out, r) →
            (tailOk (stoDk e) true r = false → fails (.nrd n) 3) ∧
            (tailOk (stoDk e) true r = true → out.length ≠ fld e.cmd 191 160 → fails (.nrd n) 4) ∧
            (tailOk (stoDk e) true r = true → out.length = fld e.cmd 191 160 → exec (.nrd n) s = fin 0 out.length sum (homeWrite e.asid (stoBuf e) out)))))) ∧
    (∀ x bs, stoOp e = 2 → namespaceOf s e = some x → x.ok = true → blocksExist x e = true → homePoisoned v e.asid (stoBuf e) (blockSpan x e).2 = false →
      homeRead v e.asid (stoBuf e) (blockSpan x e).2 = some bs →
      exec (.nwr n) s = fin 0 0 0 (fun t => { t with pkg := { t.pkg with spaces := t.pkg.spaces.map (fun y => if y.dev == x.dev && y.nsid == x.nsid then { y with
        data := writeBytes y.data (blockSpan x e).1 bs
        durable := if e.cmd.toNat.testBit 12 then writeBytes y.durable (blockSpan x e).1 bs else y.durable } else y) } })) ∧
    (∀ x, stoOp e = 3 → namespaceOf s e = some x → x.ok = true →
      exec (.nfl n) s = fin 0 0 0 (fun t => { t with pkg := { t.pkg with spaces := t.pkg.spaces.map (fun y =>
        if y.dev == x.dev && y.nsid == x.nsid then { y with durable := y.data } else y) } })) ∧
    (∀ bs out r, stoOp e = 4 → homePoisoned v e.asid (fld e.cmd 127 64) (fld e.cmd 159 128) = false →
      homePoisoned v e.asid (stoDictSpan e).1 (stoDictSpan e).2 = false → homeRead v e.asid (fld e.cmd 127 64) (fld e.cmd 159 128) = some bs →
      expanded v e bs = some (out, r) → tailOk (stoDk e) false r = true → out.length = fld e.cmd 191 160 →
      exec (.zdec n) s = fin 0 out.length 0 (homeWrite e.asid (stoBuf e) out)) ∧
    (∀ bs, stoOp e = 4 → homePoisoned v e.asid (fld e.cmd 127 64) (fld e.cmd 159 128) = false →
      homePoisoned v e.asid (stoDictSpan e).1 (stoDictSpan e).2 = false → homeRead v e.asid (fld e.cmd 127 64) (fld e.cmd 159 128) = some bs →
      (expanded v e bs = none → fails (.zdec n) 3) ∧
      (∀ out r, expanded v e bs = some (out, r) →
        (tailOk (stoDk e) false r = false → fails (.zdec n) 3) ∧
        (tailOk (stoDk e) false r = true → out.length ≠ fld e.cmd 191 160 → fails (.zdec n) 4))) ∧
    (∀ bs, stoOp e = 5 → homePoisoned v e.asid (fld e.cmd 127 64) (fld e.cmd 159 128) = false → homeRead v e.asid (fld e.cmd 127 64) (fld e.cmd 159 128) = some bs →
      exec (.csum n) s = fin (if e.cmd.toNat.testBit 13 && checksum (stoCk e) bs != fld e.cmd 447 384 then 2 else 0) 0 (checksum (stoCk e) bs) id) ∧
    (∀ x, stoOp e = 1 → namespaceOf s e = some x → x.ok = false → exec (.nrd n) s = fin 7 0 0 id) ∧
    (stoOp e = 2 → namespaceOf s e = none → fails (.nwr n) 1)) ∧
  (∀ (s : State) (n : Nat), stoReady s n = false → ∀ i ∈ [Instr.nrd n, .nwr n, .nfl n, .zdec n, .csum n, .commandTimeout n 0], exec i s = .next s) ∧
  (∀ (s : State) (n v : Nat) (e : StoCmd), s.pkg.sto[n]? = some e → stoOp e ≤ 3 → stoReady s n = true → ∃ t d, exec (.commandTimeout n v) s = .next t ∧
    t.pkg.stoDone = s.pkg.stoDone ++ [d] ∧ d.cmd = e ∧ d.estat = 1 ∧ d.nvst = v % 65536 ∧ t.pkg.sto = removeAt n s.pkg.sto ∧
    (stoOp e ≠ 1 → t.pkg.mem = s.pkg.mem)) ∧
  (∀ (s : State) (d : StoDone) (m : Nat), s.pkg.stoDone[m]? = some d →
    (slotWritable s d = false → exec (.storageCompletion m) s = .next s) ∧
    (slotWritable s d = true → ∃ t, exec (.storageCompletion m) s = .next t ∧ t.pkg.stoDone = removeAt m s.pkg.stoDone ∧
      t.pkg.mem = (homeBytes d.cmd.asid (stoStat d.cmd) (slotBytes d) (creameryView s)).pkg.mem ∧
      t.pkg.adds = s.pkg.adds ++ [{
        asid := d.cmd.asid, va := fld d.cmd.cmd 383 320, inc := 1, core := d.cmd.core, inst := d.cmd.inst, stamp := d.cmd.stamp }]))

/-! ## Counters and messages on their way -/

/-- R184, R193, R287, R288, R294, R420: an add takes effect after those of its core to the same counter: the value rises, saturating with an error
record; waits that it satisfies end and registered arms that it satisfies fire once, in their order. A page that is gone discards it with a record. An
arm is registered, or fires at once; one fired for another package is sent there; CWAIT polls. -/
def Obligations.CounterEvents : Prop :=
  (∀ (s : State) (n : Nat) (a : Add), s.pkg.adds[n]? = some a → (∀ b ∈ s.pkg.adds.take n, b.core = a.core → b.asid = a.asid → b.va ≠ a.va) →
    ((ctrPage s a.asid a.va).isSome = true → ∀ v, v = min (ctrVal s a.asid a.va + a.inc) (2 ^ 64 - 1) →
      ∃ t, exec (.counterAdd n) s = .next t ∧ ctrVal t a.asid a.va = v ∧ (∀ va, va ≠ a.va → ctrVal t a.asid va = ctrVal s a.asid va) ∧
        t.pkg.adds = removeAt n s.pkg.adds ∧
        t.pkg.waiters = s.pkg.waiters.filter (fun w => !(w.asid == a.asid && w.va == a.va && w.th ≤ v)) ∧
        t.pkg.arms = s.pkg.arms.filter (fun x => !(x.registered && x.asid == a.asid && x.va == a.va && decide (x.th ≤ v))) ∧
        (t.pkg.armOut.map (fun f => (f.src, f.ctx, f.dest, f.msg.t0, f.msg.t1)) = s.pkg.armOut.map (fun f => (f.src, f.ctx, f.dest, f.msg.t0, f.msg.t1)) ++
          (s.pkg.arms.filter (fun x => x.registered && x.asid == a.asid && x.va == a.va && decide (x.th ≤ v))).map
            (fun x => (x.core, x.ctx, hCore x.msg.hdr, x.msg.t0, x.msg.t1))) ∧
        (2 ^ 64 ≤ ctrVal s a.asid a.va + a.inc → ∃ e, t.pkg.errs = s.pkg.errs ++ [e] ∧ e.cause = 6 ∧ e.inst = a.inst ∧ e.detail = a.va)) ∧
    (ctrPage s a.asid a.va = none → ∃ t e, exec (.counterAdd n) s = .next t ∧ t.pkg.adds = removeAt n s.pkg.adds ∧ t.pkg.ctrs = s.pkg.ctrs ∧
      t.pkg.errs = s.pkg.errs ++ [e] ∧ e.cause = 14 ∧ e.inst = a.inst ∧ e.detail = a.va)) ∧
  (∀ (s : State) (n : Nat) (a : Arm), s.pkg.arms[n]? = some a → a.registered = false → (∀ b ∈ s.pkg.arms.take n, b.core = a.core → b.registered = true) →
    ∀ p, ctrPage s a.asid a.va = some p → (s.pkg.arms.filter (fun b => b.registered && storeOf s b.asid b.va == some p.home)).length < 1024 →
      (ctrVal s a.asid a.va < a.th → (∀ b ∈ s.pkg.arms, b.registered = true → b.asid = a.asid → b.va = a.va → ctrVal s a.asid a.va < b.th) →
        ∃ t, exec (.armRegistration n) s = .next t ∧ t.pkg.arms = removeAt n s.pkg.arms ++ [{ a with registered := true }] ∧ t.core = s.core) ∧
      (a.th ≤ ctrVal s a.asid a.va → ∃ t f, exec (.armRegistration n) s = .next t ∧ f ∈ t.pkg.armOut ∧ f.src = a.core ∧ f.dest = hCore a.msg.hdr ∧
        f.msg.t0 = a.msg.t0 ∧ f.msg.t1 = a.msg.t1)) ∧
  (∀ (s : State) (n : Nat) (f : Flight), s.pkg.armOut[n]? = some f → (∀ g ∈ s.pkg.armOut.take n, g.dest = f.dest → g.pkg ≠ f.pkg) →
    (f.pkg ≠ s.pkg.pkgId.toNat → exec (.armEmission n) s = .next { s with pkg := { s.pkg with armOut := removeAt n s.pkg.armOut, msgs := s.pkg.msgs ++ [f] } }) ∧
    (f.pkg = s.pkg.pkgId.toNat → isShadow s f.dest (hInst f.msg.hdr) = false → residentOn s f.dest (hInst f.msg.hdr) = true → retiring s f.dest = false →
      ((coreOf s f.dest).ready.length < 256 →
        ∃ t, exec (.armEmission n) s = .next t ∧ (coreOf t f.dest).ready = (coreOf s f.dest).ready ++ [f.msg] ∧ t.pkg.armOut = removeAt n s.pkg.armOut) ∧
      (256 ≤ (coreOf s f.dest).ready.length → exec (.armEmission n) s = .next s))) ∧
  (∀ (s : State) (h va th : Nat), h < s.core.ctxs.length → (ctxAt s h).wait = .cwait va th →
    ((ctrPage s (asidOf s) va).isSome = true → th ≤ ctrVal s (asidOf s) va →
      ∃ t, exec (.cwaitPoll s.core.id h) s = .next t ∧ ctxAt t h = { ctxAt s h with wait := .none }) ∧
    (ctrVal s (asidOf s) va < th → ∃ t, exec (.cwaitPoll s.core.id h) s = .next t ∧ t.core = s.core ∧
      (s.pkg.waiters = [] → (ctrPage s (asidOf s) va).isSome = true → t.pkg.waiters = [⟨s.core.id, h, asidOf s, va, th⟩])))

/-- R108, R191, R229, R338: a message arrives, in its turn, at the end of the inbound queue, or of the spill queue behind earlier ones, and ends
IDLEs; it is refused while the spill queue is full, and tried again; a message without an instance there, or to a secondary, goes to Klogar; the
oldest spilled message moves into room. A message for another package goes out in its turn; one that cannot, without a route or refused there, returns
to Klogar with a record, and so does every later one of its core to that package (R265, R401). R238, R239: the home gives a stream item the next index
of its stream and sends it to its member; exports enter an EMPTY slot of the member that reads them, and wait for one. R326 to R329: the queue engine
takes the next request of a ring and delivers it as a message with its tuple and TAG, adding 1 to TAKEN; a malformed request is completed with status
4, one without a destination with status 5. The model's own choices that it rests on: notes/assumptions/55.md. -/
def Obligations.Messages : Prop :=
  ((∀ (s : State) (n : Nat) (f : Flight), s.pkg.msgs[n]? = some f → f.msg.strm = none → inTurn s n f = true → f.pkg = s.pkg.pkgId.toNat →
     ∀ i, i = (if f.refused then Instr.deliveryRetry n else .messageArrival n) →
     (residentOn s f.dest (hInst f.msg.hdr) = true → isShadow s f.dest (hInst f.msg.hdr) = false → ∀ c, c = coreOf s f.dest →
       (c.spill = [] → c.inbound.length < 64 → ∃ t, exec i s = .next t ∧ (coreOf t f.dest).inbound = c.inbound ++ [f.msg] ∧ t.pkg.msgs = removeAt n s.pkg.msgs ∧
         (∀ x ∈ (coreOf t f.dest).ctxs, x.wait ≠ .idle)) ∧
       (c.spill ≠ [] ∨ 64 ≤ c.inbound.length → c.spill.length < spillRoom → ∃ t, exec i s = .next t ∧
         (coreOf t f.dest).spill = c.spill ++ [f.msg] ∧ (coreOf t f.dest).inbound = c.inbound ∧ t.pkg.msgs = removeAt n s.pkg.msgs) ∧
       (c.spill ≠ [] ∨ 64 ≤ c.inbound.length → spillRoom ≤ c.spill.length → ∃ t, exec i s = .next t ∧ t.core = s.core ∧
         t.pkg.msgs = mapAt (fun g => { g with refused := true }) n s.pkg.msgs)) ∧
     (takesFor s f.dest (hInst f.msg.hdr) = false → ∃ t e, exec i s = .next t ∧ t.pkg.klogar = s.pkg.klogar ++ [f.msg] ∧
       t.pkg.msgs = removeAt n s.pkg.msgs ∧ t.pkg.errs = s.pkg.errs ++ [e] ∧ e.core = f.dest)) ∧
   (∀ (s : State) (n : Nat) (f : Flight), s.pkg.msgs[n]? = some f → f.msg.strm = none → inTurn s n f = true → f.pkg ≠ s.pkg.pkgId.toNat →
     ∀ i lost, i = (if f.refused then Instr.deliveryRetry n else .messageArrival n) →
     lost = (s.pkg.cutOff.contains (f.src, f.pkg) || (look f.pkg s.pkg.routes).isNone || Config.remoteRefuses s.freeCtr f.pkg) →
       ∃ t, exec i s = .next t ∧ t.core = s.core ∧ t.pkg.msgs = removeAt n s.pkg.msgs ∧
         (lost = true → t.pkg.klogar = s.pkg.klogar ++ [f.msg] ∧ t.pkg.flits = s.pkg.flits ∧ (f.src, f.pkg) ∈ t.pkg.cutOff ∧
           ∃ e, t.pkg.errs = s.pkg.errs ++ [e] ∧ e.inst = f.inst ∧ e.core = f.src ∧ e.detail = f.pkg) ∧
         (lost = false → t.pkg.flits = s.pkg.flits ++ [⟨f.pkg, 0, payloadOf f⟩] ∧ t.pkg.klogar = s.pkg.klogar ∧ t.pkg.errs = s.pkg.errs)) ∧
   (∀ (s : State) m ms, s.core.spill = m :: ms → s.core.inbound.length < 64 → ∃ t, exec (.spillRefill s.core.id) s = .next t ∧
     t.core.inbound = s.core.inbound ++ [m] ∧ t.core.spill = ms)) ∧
  ((∀ (s : State) (n st inst : Nat) (f : Flight) (x : Inst) (g : Stage), s.pkg.msgs[n]? = some f → f.msg.strm = some st → inTurn s n f = true →
     f.pkg = s.pkg.pkgId.toNat → inst = hInst f.msg.hdr → look inst s.pkg.insts = some x → stageFor x st = some g →
     ∀ i k, i = nextIndex s inst st → k = g.group.getD (i % max g.group.length 1) f.dest → residentOn s k inst = true →
       ∃ t m, exec (.itemAssign n) s = .next t ∧ nextIndex t inst st = i + 1 ∧ (coreOf t k).items = (coreOf s k).items ++ [{ strm := st, index := i, msg := m }] ∧ m.t0 = f.msg.t0 ∧ m.t1 = f.msg.t1 ∧
         hItem m.hdr = i % 2 ^ 64 ∧ hType m.hdr = g.type % 1024 ∧ t.pkg.msgs = removeAt n s.pkg.msgs) ∧
   (∀ (s : State) (n : Nat) (f : ExpFlight) (x : Inst), s.pkg.exps[n]? = some f → look f.inst s.pkg.insts = some x → look f.dest x.second = none →
     residentOn s f.dest f.inst = true → (coreOf s f.dest).fwd.length = 32 →
       ((coreOf s f.dest).fwd.getD (f.item % 32) .empty = .empty → ∃ t, exec (.exportArrival n) s = .next t ∧
         (coreOf t f.dest).fwd.getD (f.item % 32) .empty = fwdOf f ∧ t.pkg.exps = removeAt n s.pkg.exps) ∧
       ((coreOf s f.dest).fwd.getD (f.item % 32) .empty ≠ .empty → exec (.exportArrival n) s = .next s))) ∧
  (∀ (s : State) (qid : Nat) (q : Queue) (x : Inst) (bs : List Byte) (e : Nat), look qid s.pkg.queues = some q → look q.inst s.pkg.insts = some x → mayTake s qid q x = true →
     homeRead (creameryView s) q.asid (q.ring + 64 * (ctrVal s q.asid q.taken % 2 ^ q.n)) 64 = some bs → e = numLE bs → (ctrPage s q.asid q.taken).isSome = true →
     ctrVal s q.asid q.taken + 1 < 2 ^ 64 → q.compl ≠ q.taken →
     (∀ k, reqOk e = true → reqDest s q x e = some k → ∃ t f, exec (.queueTake qid) s = .next t ∧ t.pkg.msgs = s.pkg.msgs ++ [f] ∧ f.dest = k ∧ f.inst = q.inst ∧
       hType f.msg.hdr = bits e 47 38 ∧ hInst f.msg.hdr = q.inst % 65536 ∧ f.msg.t0 = BitVec.ofNat 64 (bits e 191 128) ∧ f.msg.t1 = BitVec.ofNat 64 (bits e 255 192) ∧
       f.msg.req = some (qid, BitVec.ofNat 64 (bits e 319 256)) ∧ ctrVal t q.asid q.taken = ctrVal s q.asid q.taken + 1) ∧
     (∀ st, (reqOk e = false ∧ st = 4 ∨ reqOk e = true ∧ reqDest s q x e = none ∧ st = 5) → ∃ t, exec (.queueTake qid) s = .next t ∧ t.pkg.msgs = s.pkg.msgs ∧
       t.pkg.mem = (homeBytes q.asid (q.cring + 32 * (ctrVal s q.asid q.compl % 2 ^ q.n))
         (bytesLE st 8 ++ bytesLE 0 8 ++ bytesLE 0 8 ++ bytesLE (bits e 319 256) 8) (creameryView s)).pkg.mem ∧
       ctrVal t q.asid q.taken = ctrVal s q.asid q.taken + 1))

/-- R225, R227, R228, R371 to R373: a dispatch takes the chosen entry and makes its activation: the control context alone is live, at the entry of the
type's handler, with the window of the version, FLG at its reset value and the rest of the window cleared but for its initial values; here one of the
inbound queue, in single mode. R227: the dispatcher's order: a source with a grant left and an entry that is not held is served, the grant falling by
1; else the next source in the cycle 1, 2, 3 with its weight; without an entry none. Source 1 is the inbound queue with its spill queue. An item whose
activation returned to PENDING (R225) goes before every other one. The model's own choices that it rests on: notes/assumptions/33.md,
notes/assumptions/57.md. -/
def Obligations.Dispatches : Prop :=
  (∀ (s : State) (inst tag : Nat) (x : Inst) (v : Version) (hd : Handler) (m : Msg) (ms : List Msg), s.wf = true → s.core.act = none → s.core.resident = some inst →
     look inst s.pkg.insts = some x → mayDispatch s inst x = true → s.core.inbound = m :: ms → s.core.disp = {} → x.qwt ≠ 0 →
     newerGen (hG m.hdr) (instOn s.core inst).gen = false → selectVersion (instOn s.core inst) m.toNewest (hVq m.hdr) (hVt m.hdr) = some tag →
     x.versions.find? (fun w => w.tag == tag) = some v → v.handlers.find? (fun h => h.type == hType m.hdr) = some hd → hd.redm = 0 → hd.nw ≤ 64 →
       ∃ t a, exec (.dispatch s.core.id) s = .next t ∧ t.core.act = some a ∧ a.inst = inst ∧ a.vtag = v.tag ∧ a.nw = hd.nw ∧ a.nv = hd.nv ∧ a.redm = 0 ∧ a.trig = m ∧
         a.held = [] ∧ a.pending = [] ∧ a.st = .running ∧ t.core.inbound = ms ∧ t.core.actCount = s.core.actCount + 1 ∧
         (ctxAt t 0).live = true ∧ (ctxAt t 0).pc = BitVec.ofNat 64 hd.entry ∧ (ctxAt t 0).wp = BitVec.ofNat 64 v.wsb ∧ (ctxAt t 0).flg = 0x80C00 ∧ (ctxAt t 0).repst = 0 ∧
         (ctxAt t 0).wait = .none ∧ (∀ h, h ≠ 0 → (ctxAt t h).live = false) ∧
         readLE t.core.ls v.wsb 8 = m.t0.toNat ∧ readLE t.core.ls (v.wsb + 8) 8 = m.t1.toNat ∧ readLE t.core.ls (v.wsb + 24) 8 = hCore m.hdr ∧
         readLE t.core.ls (v.wsb + 104) 8 = v.gp % 2 ^ 64 ∧ readLE t.core.ls (v.wsb + 112) 8 = (v.wsb + 1536 + hd.stk) % 2 ^ 64 ∧
         (∀ n, n < hd.nw → n ≠ 0 → n ≠ 1 → n ≠ 2 → n ≠ 3 → n ≠ 13 → n ≠ 14 → readLE t.core.ls (v.wsb + 8 * n) 8 = 0) ∧
         (∀ n, n < hd.nv → readBytes t.core.ls (v.wsb + 512 + 64 * n) 64 = List.replicate 64 0#8)) ∧
  (∀ (c : Core) (inst : Nat) (x : Inst) (source grant : Nat), 1 ≤ source → source ≤ 3 →
     (∀ e, grant ≠ 0 → headOf c source = some e → heldEntry c inst e = false → choose c inst x 4 source grant = some (e, grant - 1)) ∧
     (∀ e, (grant = 0 ∨ headOf c source = none) → weightOf x (source % 3 + 1) ≠ 0 → headOf c (source % 3 + 1) = some e → heldEntry c inst e = false →
       choose c inst x 4 source grant = some (e, weightOf x (source % 3 + 1) - 1)) ∧
     (c.inbound = [] → c.spill = [] → c.ready = [] → c.items = [] → choose c inst x 4 source grant = none) ∧
     (∀ m ms, c.inbound = [] → c.spill = m :: ms → headOf c 1 = some { source := 1, msg := m }) ∧
     (∀ i is, c.items = i :: is → i.again = true → headOf c 3 = some { source := 3, msg := i.msg, strm := i.strm, item := i.index }))

/-! ## Verdicts -/

/-- R309, R311, R312, R314 to R320: a vote reaches the unit; a verdict waits for every replica. Votes that agree commit the segment on every replica
with the snapshots taken at the votes, or abort. When a PAIR differs, or a replica does not vote in time, every replica discards the context's held
outputs, takes back its journalled bytes and returns to its snapshot, MISMATCH pending in its control context (not where a replica has consumed a UE,
which costs it a suspect mark); in the control context's first segment the activation returns to PENDING instead; a second mismatch ends it in every
replica as an instance fault, whose record names each with its signatures. A TRIAD with a majority goes on: the minority takes context, window and
journalled bytes of the lowest-numbered majority replica, with a suspect mark, and a repaired primary that replica's held outputs. -/
def Obligations.Verdicts : Prop :=
  (∀ (s : State) (n : Nat) (v : Vote), s.pkg.votes[n]? = some v →
    exec (.vote n) s = .next { s with pkg := { s.pkg with votes := removeAt n s.pkg.votes, unit := s.pkg.unit ++ [v] } }) ∧
  (∀ (s : State) (n : Nat) (v : Vote) (vs : List Vote), s.pkg.unit[n]? = some v → vs = ballots s v.group v.ctx →
    (vs.length ≠ v.group.length → exec (.verdict n) s = .next s) ∧
    (vs.length = v.group.length → vs ≠ [] → (∀ w ∈ vs, agree w v = true ∧ w.kind = v.kind) →
      (v.kind = 3 → exec (.verdict n) s = .next (onGroup v.group (abortAct 2) (clearBallots v.group v.ctx s))) ∧
      (v.kind = 0 → v.ctx ≠ 0 → exec (.verdict n) s = .next (onGroup v.group (commitVoted v.ctx) (clearBallots v.group v.ctx s))) ∧
      (v.kind = 0 → v.ctx = 0 → exec (.verdict n) s =
        .next (releaseCauses v.group (onGroup v.group (commitVoted 0) (clearBallots v.group 0 s)))))) ∧
  (∀ (s : State) (h : Nat), s.wf = true → h < 11 → (ctxAt (commitVoted h s) h).snap = (ctxAt s h).cand ∧ (ctxAt (commitVoted h s) h).wait = .none ∧
    (ctxAt (commitVoted h s) h).stage = (ctxAt s h).stage + 1 ∧ (ctxAt (commitVoted h s) h).pc = (ctxAt s h).pc) ∧
  (∀ (s : State) (n h j k : Nat) (v x y : Vote) (i : Instr), s.wf = true → s.pkg.unit[n]? = some v → v.ctx = h → h < 11 → v.group = [j, k] → j ≠ k →
    (i = .verdict n ∧ ballots s [j, k] h = [x, y] ∧ agree x y = false ∨
      i = .voteTimeout n ∧ paused (coreOf s j) = false ∧ paused (coreOf s k) = false ∧
        (ballots s [j, k] h = [x] ∧ x.core = j ∧ y = lateVote s v k ∨ ballots s [j, k] h = [y] ∧ y.core = k ∧ x = lateVote s v j)) →
    (∀ c ∈ [coreOf s j, coreOf s k], (∃ a, c.act = some a ∧ a.redm = 1) ∧ (c.ctxs.getD h {}).live = true ∧ (c.ctxs.getD h {}).snapBad = false ∧ (c.ctxs.getD h {}).mid = none) →
    ((∀ c ∈ [coreOf s j, coreOf s k], (c.ctxs.getD h {}).replays = 0 ∧ (h = 0 → (c.ctxs.getD h {}).firstSeg = false)) →
      ∃ t, exec i s = .next t ∧ ∀ e ∈ [(j, x), (k, y)], ∀ c a r, c = coreOf s e.1 → c.act = some a → (c.ctxs.getD h {}).snap = some r →
        (∃ b, (coreOf t e.1).act = some b ∧ b.held = a.held.filter (fun o => o.ctx != h) ∧
          b.pending = a.pending ++ (if x.kind = 4 ∨ y.kind = 4 then [] else [{ code := 12, value := votedAt [x, y] }])) ∧
        ((coreOf t e.1).ctxs.getD h {}).replays = 1 ∧ ((coreOf t e.1).ctxs.getD h {}).pc.toNat = readLE r 1536 8 ∧ ((coreOf t e.1).ctxs.getD h {}).wait = .none ∧
        (coreOf t e.1).ls = restoreRegs a.nw a.nv r (readLE r 1560 8) (undoJournal h c).ls ∧
        (coreOf t e.1).suspects = (if e.2.kind = 4 then min (c.suspects + 1) 15 else c.suspects)) ∧
    (h = 0 → (∀ c ∈ [coreOf s j, coreOf s k], (c.ctxs.getD 0 {}).replays = 0 ∧ (c.ctxs.getD 0 {}).firstSeg = true) →
      ∃ t, exec i s = .next t ∧ (coreOf t j).act = none ∧ (coreOf t k).act = none ∧ t.pkg.msgs = s.pkg.msgs ∧
        ∀ a, (coreOf s j).act = some a → a.source = 1 → a.rplc = 0 → ∃ m, (coreOf t j).inbound = m :: (coreOf s j).inbound ∧ m.hdr = a.trig.hdr ∧ m.t0 = a.trig.t0 ∧ m.t1 = a.trig.t1 ∧ m.replays = 1) ∧
    (((coreOf s j).ctxs.getD h {}).replays = 1 → (h = 0 → ∀ c ∈ [coreOf s j, coreOf s k], (c.ctxs.getD h {}).firstSeg = false) →
      ∃ t e f, exec i s = .next t ∧ (∀ c ∈ [coreOf t j, coreOf t k], c.act = none ∧ ∀ z ∈ c.ctxs, z.live = false) ∧
        e ∈ t.pkg.errs ∧ e.cause = 4 ∧ e.detail = votedAt [x, y] ∧ e.group = [(x.core, x.ctxsig.toNat, x.regsig.toNat), (y.core, y.ctxsig.toNat, y.regsig.toNat)] ∧
        t.pkg.msgs = s.pkg.msgs ++ [f] ∧ hType f.msg.hdr = 1023 ∧ f.msg.t1.toNat / 2 ^ 32 = 0x83)) ∧
  (∀ (s : State) (n h : Nat) (v x y z m w : Vote) (mc wc : Core) (a b : Act), s.wf = true → s.pkg.unit[n]? = some v → v.ctx = h → h < 11 → v.group.length = 3 → v.group.Nodup →
    ballots s v.group h = [x, y, z] →
    (m = x ∧ w = z ∧ agree x y = true ∧ agree x z = false ∨ m = x ∧ w = y ∧ agree x z = true ∧ agree x y = false ∨ m = y ∧ w = x ∧ agree y z = true ∧ agree x y = false) →
    m.kind = 0 → mc = coreOf s m.core → wc = coreOf s w.core → mc.act = some a → wc.act = some b →
      ∃ t, exec (.verdict n) s = .next t ∧ (coreOf t w.core).suspects = min (wc.suspects + 1) 15 ∧
        ((coreOf t w.core).ctxs.getD h {}).pc = (mc.ctxs.getD h {}).pc ∧ ((coreOf t w.core).ctxs.getD h {}).snap = (mc.ctxs.getD h {}).cand ∧
        ((coreOf t w.core).ctxs.getD h {}).flg = (mc.ctxs.getD h {}).flg ∧ ((coreOf t w.core).ctxs.getD h {}).wait = .none ∧
        ((∀ k ∈ v.group, ∀ o ∈ (coreOf s k).wins, o = none) → ∀ g ∈ windowRanges (a.nw, a.nv) (mc.ctxs.getD h {}).wp.toNat ++ (mc.ctxs.getD h {}).journal.map (fun j => (j.1, j.2.length)), ∀ i, g.1 ≤ i → i < g.1 + g.2 →
          memRead (coreOf t w.core).ls i = memRead mc.ls i)) ∧
  (∀ (s : State) (h m k addr : Nat) (a b : Act), s.wf = true → h < 11 → m ≠ k → (coreOf s m).act = some a → (coreOf s k).act = some b → ∀ (first : Bool),
    ∃ c, (coreOf (repair h first m k addr s) k).act = some c ∧ c.held.filter (fun e => e.ctx != h) = b.held.filter (fun e => e.ctx != h) ∧
      (c.held.filter (fun e => e.ctx == h)).map (·.out) = (if first then (a.held.filter (fun e => e.ctx == h)).map (·.out) else [])) ∧
  (∀ (s : State) (n : Nat) (v : Vote) (late : List Nat) (t : State), s.pkg.unit[n]? = some v → (∀ k ∈ v.group, paused (coreOf s k) = false) →
    late = v.group.filter (fun k => !(ballots s v.group v.ctx).any (fun w => w.core == k)) →
    (late = [] → exec (.voteTimeout n) s = .next s) ∧
    (late ≠ [] → t = { s with pkg := { s.pkg with
        votes := s.pkg.votes.filter (fun w => !(late.contains w.core && w.ctx == v.ctx))
        unit := s.pkg.unit ++ late.map (lateVote s v) } } →
      exec (.voteTimeout n) s = .next (judge v.group v.ctx (ballots t v.group v.ctx) t))) ∧
  (∀ (s : State) (n : Nat) (v : Vote), s.pkg.unit[n]? = some v → (∃ k ∈ v.group, paused (coreOf s k) = true) → exec (.voteTimeout n) s = .next s)

/-! ## Time-sharing and upgrades -/

/-- R234, R322, R331 to R335, R337, R338, R340, R421: a pre-emption stops issue on every core of the placement, and once all are quiet writes their
images, which hold the activation, the contexts, the local store and the queues, and leaves no instance resident; a clear that runs and a vote in
flight end first; an image's header has its fields; a resumption puts the images back. The scrub of a first residence leaves the local store clear but
for the data blocks, and the start message before what has come. The chosen instance becomes resident when its cores are free; a slot goes at once, or
at the activation's end. The model's own choices that it rests on: notes/assumptions/25.md, notes/assumptions/42.md, notes/assumptions/43.md. -/
def Obligations.TimeSharing : Prop :=
  (∀ (s u : State) (k i : Nat) (x : Inst), settled s k = some (i, x) → (∀ j ∈ membersOf x, residentOn s j i = true ∧ voting (coreOf s j) = false ∧ clearing (coreOf s j) = false) →
    u = onGroup (membersOf x) (fun s => if s.core.act.isSome then stopIssue s else s) s →
    ((∀ j ∈ membersOf x, quiet (coreOf u j) = true) → exec (.preemption k) s = .next (onGroup (membersOf x) (displace i x.asid) u)) ∧
    ((∃ j ∈ membersOf x, quiet (coreOf u j) = false) → exec (.preemption k) s = .next u)) ∧
  (∀ (s : State) (k i : Nat) (x : Inst), settled s k = some (i, x) → (∃ j ∈ membersOf x, voting (coreOf s j) = true ∨ clearing (coreOf s j) = true) → exec (.preemption k) s = .next s) ∧
  (∀ (s : State) (i asid : Nat), s.core.mxu.q = [] → ∃ sv, (displace i asid s).pkg.saves = s.pkg.saves ++ [sv] ∧ sv.core = s.core.id ∧ sv.inst = i ∧
    sv.image.act = s.core.act ∧ sv.image.ctxs = s.core.ctxs ∧ sv.image.ls = s.core.ls ∧ sv.image.ready = s.core.ready ∧ sv.image.items = s.core.items ∧
    sv.image.spill = s.core.inbound ++ s.core.spill ∧ sv.image.lut = s.core.lut ∧ sv.image.fwd = s.core.fwd ∧ sv.image.chans = s.core.chans ∧ sv.image.tvec = s.core.tvec ∧
    sv.image.twp = s.core.twp ∧ (displace i asid s).core.resident = none ∧ (displace i asid s).core.act = none ∧
    (∀ h, (ctxAt (displace i asid s) h).live = false)) ∧
  (∀ (i asid h : Nat) (c : Core), h = imageHeader (saveImage i asid c) → bits h 15 0 = 1 ∧ bits h 23 16 = (if c.act.isSome then 1 else 0) ∧
    (∀ n, n < 11 → bit h (32 + n) = (c.ctxs.getD n {}).live) ∧ bits h 49 48 = (match c.act with | some a => a.redm % 4 | none => 0) ∧ bits h 63 50 = c.id % 2 ^ 14 ∧
    bits h 79 64 = i % 2 ^ 16 ∧ bits h 95 80 = asid % 2 ^ 16 ∧ bits h 31 24 = 0 ∧ bits h 47 43 = 0 ∧ bits h 127 112 = 0 ∧ bits h 511 256 = 0) ∧
  (∀ (s : State) (i : Nat) (x : Inst) (sv : Save), s.core.resident = some i → look i s.pkg.insts = some x → membersOf x = [s.core.id] → x.fresh = [] →
    saveOf s s.core.id i = some sv → sv.live &&& (255 - Config.features) = 0 → s.core.lastAsid = some sv.asid →
    ∃ t, exec (.resumption s.core.id) s = .next t ∧ t.core.ls = sv.image.ls ∧ t.core.tvec = sv.image.tvec ∧ t.core.spill = sv.image.spill ∧
      t.core.act.map (·.inst) = sv.image.act.map (·.inst) ∧ saveOf t s.core.id i = none ∧
      (∀ h, (ctxAt t h).pc = (sv.image.ctxs.getD h {}).pc ∧ (ctxAt t h).wp = (sv.image.ctxs.getD h {}).wp ∧ (ctxAt t h).flg = (sv.image.ctxs.getD h {}).flg ∧
        (ctxAt t h).live = (sv.image.ctxs.getD h {}).live)) ∧
  (∀ (s : State) (i : Nat) (x : Inst), s.core.resident = some i → look i s.pkg.insts = some x → x.fresh.contains s.core.id = true →
    x.placement.contains s.core.id = true →
    ∃ t m, exec (.scrub s.core.id i) s = .next t ∧ t.core.ls = x.versions.foldl (fun m v => writeBytes m v.gp v.data) [] ∧ t.core.inbound = [m] ∧
      hType m.hdr = 0 ∧ hInst m.hdr = i % 65536 ∧ m.klogar = true ∧ t.core.act = none ∧ (∀ h, (ctxAt t h).live = false) ∧ t.core.poison = [] ∧
      (look i t.pkg.insts).map (·.fresh) = some (x.fresh.filter (· != s.core.id)) ∧
      (saveOf s s.core.id i = none → t.core.spill = s.core.inbound ++ s.core.spill ∧ t.core.ready = s.core.ready ∧ t.core.items = s.core.items)) ∧
  (∀ (s : State) (k i : Nat) (x : Inst), look i s.pkg.insts = some x → (membersOf x).contains k = true → chosen s i x = true →
    (∀ j ∈ membersOf x, (coreOf s j).resident = none) →
    ∃ t, exec (.quantumExpiry k i) s = .next t ∧ t.pkg = s.pkg ∧ ∀ j ∈ membersOf x, (coreOf t j).resident = some i) ∧
  (∀ (s : State) (n : Nat), (s.core.act = none → exec (.slotRevocation s.core.id n) s =
      .next { s with core := { s.core with slots := s.core.slots.filter (fun x => x.1 != n) } }) ∧
    (s.core.act.isSome = true → exec (.slotRevocation s.core.id n) s =
      .next { s with core := { s.core with slots := s.core.slots.map (fun x => if x.1 = n then (x.1, { x.2 with revoked := some (s.core.actCount.toNat, (s.core.act.map (·.inst)).getD 0) }) else x) } }))

/-- R294, R369 to R372, R380, R381, R384, R385: a switch makes the staged version of a core newest and the newest previous, its generation rising by 1
modulo 16; a switch request sends the message to every core that has it staged; an unstage request takes the staged version away; a purge marks the
version dead on a core, which acknowledges once its STARTED adds are performed; a completed upgrade removes the previous version; an instance that
ends leaves nothing. The model's own choices that it rests on: notes/assumptions/66.md. -/
def Obligations.Upgrades : Prop :=
  (∀ (s : State) (i v : Nat) (x : Inst), s.pkg.switches.contains (s.core.id, i) = true → look i s.pkg.insts = some x → (instOn s.core i).staged = some v →
    ∃ t, exec (.versionSwitch s.core.id i) s = .next t ∧ (instOn t.core i).newest = some v ∧ (instOn t.core i).previous = (instOn s.core i).newest ∧
      (instOn t.core i).staged = none ∧ (instOn t.core i).gen = ((instOn s.core i).gen + 1) % 16 ∧ t.pkg.switches = s.pkg.switches.filter (· != (s.core.id, i)) ∧
      t.core.ls = s.core.ls ∧ t.core.act = s.core.act) ∧
  (∀ (s : State) (i : Nat) (x : Inst), look i s.pkg.insts = some x → x.staged.isSome = true → exec (.switchRequest i) s = .next { s with pkg := { s.pkg with
    switches := s.pkg.switches ++ (x.placement.filter (fun k => (instOn (coreOf s k) i).staged.isSome && !s.pkg.switches.contains (k, i))).map (fun k => (k, i)) } }) ∧
  (∀ (s : State) (i v : Nat) (x : Inst), look i s.pkg.insts = some x → x.staged = some v → (∀ p ∈ s.pkg.switches, p.2 ≠ i) →
    (∀ k ∈ x.placement, (instOn (coreOf s k) i).staged = some v) → ∃ t y, exec (.unstageRequest i) s = .next t ∧ look i t.pkg.insts = some y ∧ y.staged = none ∧
      y.newest = x.newest ∧ y.versions = x.versions.filter (fun w => w.tag != v) ∧ (∀ k ∈ x.placement, (instOn (coreOf t k) i).staged = none) ∧
      t.pkg.images = s.pkg.images.filter (fun m => m.own != some (i, v))) ∧
  (∀ (s : State) (i : Nat) (x : Inst) (p : Version), look i s.pkg.insts = some x → x.previous = some p.tag → x.versions.find? (fun v => v.tag == p.tag) = some p →
    (upgradeDone s i x p = true → ∃ t y, exec (.versionRemoval i) s = .next t ∧ look i t.pkg.insts = some y ∧ y.previous = none ∧ y.purged = false ∧
      y.versions = x.versions.filter (fun w => w.tag != p.tag) ∧ (∀ k ∈ x.placement, (instOn (coreOf t k) i).previous = none) ∧
      t.pkg.images = s.pkg.images.filter (fun m => m.own != some (i, p.tag))) ∧
    (upgradeDone s i x p = false → exec (.versionRemoval i) s = .next s)) ∧
  (∀ (s : State) (i : Nat) (r : Purge) (x : Inst), s.pkg.purges = [r] → r.inst = i → r.toMark.contains s.core.id = true → look i s.pkg.insts = some x → x.second = [] →
    ∃ t, exec (.purgeMark s.core.id i) s = .next t ∧ (instOn t.core i).dead.contains r.tag = true ∧ (instOn t.core i).staged = none ∧
      t.pkg.purges = [{ r with toMark := r.toMark.filter (· != s.core.id) }] ∧ t.core.ls = s.core.ls ∧ t.core.act = s.core.act) ∧
  (∀ (s : State) (k i : Nat) (r : Purge) (x : Inst) (v : Version), s.pkg.purges = [r] → r.inst = i → r.toAck.contains k = true → r.toMark.contains k = false →
    look i s.pkg.insts = some x → x.versions.find? (fun w => w.tag == r.tag) = some v →
    ((∀ a ∈ s.pkg.adds, a.core = k → a.asid = x.asid → a.va ≠ v.upc) → exec (.purgeAck k i) s =
      .next { s with pkg := { s.pkg with purges := [{ r with toAck := r.toAck.filter (· != k) }] } }) ∧
    (v.upc ≠ 0 → (∃ a ∈ s.pkg.adds, a.core = k ∧ a.asid = x.asid ∧ a.va = v.upc) → exec (.purgeAck k i) s = .next s)) ∧
  (∀ (s : State) (i : Nat) (x : Inst), look i s.pkg.insts = some x → ∃ t, exec (.instanceDestroy i) s = .next t ∧ look i t.pkg.insts = none ∧
    (∀ a ∈ t.pkg.arms, a.inst ≠ i) ∧ (∀ v ∈ t.pkg.saves, v.inst ≠ i) ∧ (∀ p ∈ t.pkg.purges, p.inst ≠ i) ∧ (∀ z ∈ t.pkg.streams, z.1 ≠ i) ∧
    (∀ z ∈ t.pkg.switches, z.2 ≠ i) ∧ (∀ k ∈ membersOf x, look i (coreOf t k).insts = none))

/-! ## Loading, translation, caches -/

/-- R359 to R364, R369, R385: a load whose checks pass is installed in one step: its image is mapped; a module's first version is newest on every core
of its instance, a further one staged there, a library's image belongs to its context. One whose checks fail installs nothing of the object and leaves
its error record; the counter pages asked for with the request (R286) stay. The model's own choices that it rests on: notes/assumptions/45.md. -/
def Obligations.ObjectLoads : Prop :=
  ∀ (z s : State) (r : LoadReq), requestOk z r = true → s = allocPages r z →
    (∀ e, prepare s r = .error e → exec (.loadRequest r) z = .next { s with pkg := { s.pkg with loadErrs := s.pkg.loadErrs ++ [(r.asid, errBits e)] } }) ∧
    (∀ d, prepare s r = .ok d → hIsMod d.h = false → ∃ t, exec (.loadRequest r) z = .next t ∧
      t.pkg.images = s.pkg.images ++ [⟨r.asid, d.b, imageSpan d.ss, none⟩] ∧ t.pkg.insts = s.pkg.insts ∧ t.core = s.core ∧ s.pkg.pages <+: t.pkg.pages) ∧
    (∀ d x, prepare s r = .ok d → hIsMod d.h = true → r.inst = none → x = targetInst r d.h s → ∃ t y v, exec (.loadRequest r) z = .next t ∧
      look r.newInst t.pkg.insts = some y ∧ y.versions = [v] ∧ v.tag = hVtag d.h ∧ v.base = d.b ∧ y.newest = some v.tag ∧ y.previous = none ∧ y.staged = none ∧
      y.asid = r.asid ∧ y.placement = r.rects.flatMap rectCores ∧ y.fresh = membersOf x ∧
      (∀ k ∈ membersOf x, instOn (coreOf t k) r.newInst = { newest := some v.tag }) ∧
      ((∀ k ∈ membersOf x, (coreOf s k).resident = none) → ∀ k ∈ membersOf x, (coreOf t k).resident = some r.newInst)) ∧
    (∀ d i x, prepare s r = .ok d → hIsMod d.h = true → r.inst = some i → look i s.pkg.insts = some x → ∃ t y, exec (.loadRequest r) z = .next t ∧
      look i t.pkg.insts = some y ∧ y.staged = some (hVtag d.h) ∧ y.newest = x.newest ∧ y.versions.length = x.versions.length + 1 ∧
      (∀ k ∈ membersOf x, (instOn (coreOf t k) i).staged = some (hVtag d.h) ∧ (instOn (coreOf t k) i).newest = (instOn (coreOf s k) i).newest) ∧
      t.pkg.switches = s.pkg.switches ++ (if r.sw then [] else x.placement.map (fun k => (k, i))))

/-- R390 to R394, R422: a TLB miss takes a walker of its die, one for all the misses to its page, the first 64 at a time, and its walk's end fills the
TLBs that asked; a walk takes time only (notes/assumptions/7.md). Klogar maps a page for a fault that waits, after which a stash fill goes on, or
gives the access up; a cluster uses the old translation until it acknowledges a shootdown, which takes it out of its TLB; a migration flushes its
page, then moves its bytes to the new frame and leaves a stub, which goes when every cluster has acknowledged; a counter page moves to its new
cluster, in two steps as well, with its values, arms and waiters. The model's own choices that it rests on: notes/assumptions/67.md. -/
def Obligations.Translation : Prop :=
  (∀ (s : State) (n : Nat) (e : TlbEntry) (o : List (Nat × Nat × Nat)), (misses s)[n]? = some e → o = s.pkg.walks.filter (fun x => (misses s).any (fun m => walkOf m == x)) →
    (o.contains (walkOf e) = false → exec (.tableWalk n) s = .next { s with pkg := { s.pkg with walks := o ++ [walkOf e] } }) ∧
    (o.contains (walkOf e) = true → ((o.filter (fun x => x.1 == (walkOf e).1)).take 64).contains (walkOf e) = true →
      (∀ c, (s.pkg.tlb.filter (fun x => x.cluster == c)).length + (misses s).length ≤ 1024) →
      exec (.tableWalk n) s = .next { s with pkg := { s.pkg with
        walks := o.filter (· != walkOf e)
        tlb := s.pkg.tlb ++ (misses s).filter (fun m => walkOf m == walkOf e) } }) ∧
    (o.contains (walkOf e) = true → ((o.filter (fun x => x.1 == (walkOf e).1)).take 64).contains (walkOf e) = false → exec (.tableWalk n) s = .next s)) ∧
  (∀ (s : State) (n : Nat) (y : Site) (p : PageSpec), (sites s)[n]? = some y → p.asid = (siteVa s y).1 → p.size = 0 → p.die ≤ 3 → p.va % 4096 = 0 → p.va ≤ (siteVa s y).2 →
    (siteVa s y).2 < p.va + 4096 → p.va + 4096 ≤ 2 ^ 56 → p.remote = none → p.frame % 4096 = 0 → spanFree s p.asid p.va 4096 = true → frameFree s p.frame 4096 = true →
    p.bytes = [] → ∃ t, exec (.pgfault n (some p)) s = .next t ∧ t.pkg.pages = s.pkg.pages ++ [{
      asid := p.asid, va := p.va, size := 0, frame := p.frame, die := p.die, writable := p.writable, exec := p.exec, remote := none }] ∧
      paOf t p.asid (siteVa s y).2 = some (p.frame + ((siteVa s y).2 - p.va)) ∧ t.core = s.core ∧ (∀ a, p.frame ≤ a → a < p.frame + 4096 → memRead t.pkg.mem a = 0#8) ∧
      (∀ h va a, s.wf = true → h < 11 → y = .ctx s.core.id h va → (ctxAt s h).wait = .fill a → va % 64 = 0 → redundant s = false → s.pkg.migrs = [] →
        ∃ u, exec (.stashFill s.core.id h) t = .next u ∧ ctxAt u h = { ctxAt s h with wait := .none })) ∧
  (∀ (s : State) (n h va : Nat) (a : Act), (sites s)[n]? = some (.ctx s.core.id h va) → redundant s = false → s.core.act = some a →
    ∃ t f, exec (.pgfault n none) s = .next t ∧ t.core.act = none ∧ t.pkg.msgs = s.pkg.msgs ++ [f] ∧ hType f.msg.hdr = 1023 ∧ f.msg.t0 = BitVec.ofNat 64 va ∧
      f.msg.t1.toNat / 2 ^ 32 = 5) ∧
  (∀ (s : State) (h va : Nat) (a : Act), (ctxAt s h).wait = .fetch va → fetchable s (asidOf s) va = false → redundant s = false → s.core.act = some a →
    (∃ t f, exec (.fetch s.core.id h none) s = .next t ∧ t.core.act = none ∧ t.pkg.msgs = s.pkg.msgs ++ [f] ∧ f.msg.t0 = BitVec.ofNat 64 va ∧
      f.msg.t1.toNat / 2 ^ 32 = 6) ∧
    (∀ p t, mapPage (asidOf s) va p s = some t → exec (.fetch s.core.id h (some p)) s = .next t)) ∧
  (∀ (s : State) (n i c : Nat) (x : Shoot), (unacked s)[n]? = some (i, c) → s.pkg.shoot[i]? = some x →
    ((clusters s).all (fun j => (x.acked ++ [c]).contains j) = true → exec (.tlbShootdown n) s = .next { s with pkg := { s.pkg with
      shoot := removeAt i s.pkg.shoot
      tlb := s.pkg.tlb.filter (fun e => !(e.asid == x.asid && e.va == x.va && (e.cluster == c || e.cluster == 1024))) } }) ∧
    ((clusters s).all (fun j => (x.acked ++ [c]).contains j) = false → exec (.tlbShootdown n) s = .next { s with pkg := { s.pkg with
      shoot := mapAt (fun _ => { x with acked := x.acked ++ [c] }) i s.pkg.shoot
      tlb := s.pkg.tlb.filter (fun e => !(e.asid == x.asid && e.va == x.va && e.cluster == c)) } })) ∧
  (∀ (s : State) (asid va : Nat) (x : Shoot) (p : Page), s.pkg.shoot = [x] → x.old = some p → covers asid va p = true →
    (x.acked.contains (clusterOf s.core.id) = false → x.moved = false → findPage s asid va = some p) ∧
    (x.acked.contains (clusterOf s.core.id) = true ∨ x.moved = true → findPage s asid va = s.pkg.pages.find? (covers asid va))) ∧
  (∀ (s : State) (asid va die frame : Nat) (p : Page), s.pkg.ctrPages.find? (fun q => q.asid == asid && q.va == va) = none → die ≤ 3 →
    s.pkg.pages.find? (fun q => q.asid == asid && q.va == va && q.remote.isNone) = some p →
    (s.pkg.migrs.find? (fun m => m.asid == asid && m.va == va) = none → frame % pageBytes p.size = 0 → frameFree s frame (pageBytes p.size) = true →
      ∃ t, exec (.migr asid va die frame) s = .next t ∧ t.pkg.migrs = s.pkg.migrs ++ [⟨asid, va, die, frame, false⟩] ∧ t.pkg.pages = s.pkg.pages ∧
        (∀ d ∈ t.pkg.cc, d.pa < p.frame ∨ p.frame + pageBytes p.size ≤ d.pa) ∧
        (s.core.lastAsid = some p.asid → ∀ w, some w ∈ t.core.wins → ∀ i ∈ w.valid, meets (w.va + 64 * i) 64 p.va (pageBytes p.size) = false)) ∧
    (∀ m, s.pkg.migrs.find? (fun m => m.asid == asid && m.va == va) = some m → m.stub = false → ∃ t, exec (.migr asid va die frame) s = .next t ∧
      t.pkg.pages = s.pkg.pages.map (fun q => if q = p then { q with frame := m.frame, die := m.die } else q) ∧ t.pkg.shoot = s.pkg.shoot ++ [{ asid := p.asid, va := p.va, old := some p, moved := true }] ∧
      { m with stub := true } ∈ t.pkg.migrs ∧
      (∀ i, i < pageBytes p.size → memRead t.pkg.mem (m.frame + i) = memRead (flushPage p s).pkg.mem (p.frame + i)) ∧
      (s.pkg.nts = [] → s.pkg.wb = [] → s.pkg.cc = [] → ∀ i, i < pageBytes p.size → memRead t.pkg.mem (m.frame + i) = memRead s.pkg.mem (p.frame + i)))) ∧
  (∀ (s : State) (asid va die frame : Nat) (p : CtrPage), s.pkg.ctrPages.find? (fun q => q.asid == asid && q.va == va) = some p → die ≤ 3 →
    (p.home ≠ die * 256 + frame % 256 → (s.pkg.ctrPages.filter (fun q => q.home == die * 256 + frame % 256)).length < 8 →
      (∀ m ∈ s.pkg.migrs, m.asid = asid → m.va ≠ va) →
      exec (.migr asid va die frame) s = .next { s with pkg := { s.pkg with migrs := s.pkg.migrs ++ [⟨asid, va, die, frame, false⟩] } }) ∧
    (∀ m, s.pkg.migrs.find? (fun m => m.asid == asid && m.va == va) = some m → m.stub = false →
      (s.pkg.ctrPages.filter (fun q => q.home == m.die * 256 + m.frame % 256)).length < 8 → ∃ t, exec (.migr asid va die frame) s = .next t ∧
        t.pkg.ctrPages = s.pkg.ctrPages.map (fun q => if q = p then { q with home := m.die * 256 + m.frame % 256 } else q) ∧ t.pkg.ctrs = s.pkg.ctrs ∧
        t.pkg.arms = s.pkg.arms ∧ t.pkg.waiters = s.pkg.waiters ∧ t.pkg.shoot = s.pkg.shoot ++ [{ asid := asid, va := va }] ∧
        { m with stub := true } ∈ t.pkg.migrs)) ∧
  (∀ (s : State) (n : Nat) (m : Migration), s.pkg.migrs[n]? = some m → m.stub = true → (∀ p ∈ s.pkg.shoot, p.asid = m.asid → p.va ≠ m.va) →
    exec (.stubRemoval n) s = .next { s with pkg := { s.pkg with migrs := removeAt n s.pkg.migrs } })

/-- R133, R243 to R246: a stash fill takes the bytes of its sector from the cluster and the wait ends, tagged bytes keeping their own values; a
non-temporal store reaches its home, after the earlier ones of its core to a byte of it; a line of the cluster cache leaves for its home with all its
dirty bytes, and its acceptance, in its turn, puts them there. The model's own choices that it rests on: notes/assumptions/56.md. -/
def Obligations.CacheEvents : Prop :=
  (∀ (s : State) (h a i n : Nat) (w : Win) (bs : List Byte), s.wf = true → h < 11 → (ctxAt s h).wait = .fill a → winAt s.core a = some (i, w) → n = sectorOf w a →
    s.core.wins.getD i none = some w → i < s.core.wins.length → redundant s = false → s.pkg.nts = [] → heldNow s = [] →
    w.valid.contains n = false → migrating s (asidOf s) (w.va + 64 * n) = false → clusterRead s (clusterOf s.core.id) (asidOf s) (w.va + 64 * n) 64 = some bs →
    sectorPoison s (asidOf s) (w.va + 64 * n) = none →
    ∃ t, exec (.stashFill s.core.id h) s = .next t ∧ ctxAt t h = { ctxAt s h with wait := .none } ∧ sectorValid t.core a = true ∧ t.pkg = s.pkg ∧
      (∀ j, j < 64 → memRead t.core.ls (w.base + 64 * n + j) =
        if w.tagged.any (fun x => x.1 == w.base + 64 * n + j) then memRead s.core.ls (w.base + 64 * n + j) else bs.getD j 0) ∧
      (∀ x, x < w.base + 64 * n ∨ w.base + 64 * n + 64 ≤ x → memRead t.core.ls x = memRead s.core.ls x)) ∧
  (∀ (s : State) (n : Nat) (x : NtStore), s.pkg.nts[n]? = some x →
    (writableRange (focusOn x.core s) x.asid x.va x.bytes.length = true →
      (∀ y ∈ s.pkg.nts.take n, y.core = x.core → y.asid = x.asid → meets y.va y.bytes.length x.va x.bytes.length = false) → ∃ t, exec (.ntCombine n) s = .next t ∧
        t.pkg.mem = (homeBytes x.asid x.va x.bytes (focusOn x.core s)).pkg.mem ∧ t.pkg.nts = removeAt n s.pkg.nts ∧ t.core = s.core) ∧
    ((∃ y ∈ s.pkg.nts.take n, y.core = x.core ∧ y.asid = x.asid ∧ meets y.va y.bytes.length x.va x.bytes.length = true) → exec (.ntCombine n) s = .next s)) ∧
  (∀ (s : State) (n : Nat) (d : Dirty), s.pkg.cc[n]? = some d → ∃ t b, exec (.clusterCacheEviction n) s = .next t ∧ t.pkg.wb = s.pkg.wb ++ [b] ∧ (d.pa, d.byte) ∈ b.bytes ∧
    (∀ x ∈ s.pkg.cc, clusterOf x.core = clusterOf d.core → x.pa / 256 = d.pa / 256 → (x.pa, x.byte) ∈ b.bytes) ∧
    b.waiters = [] ∧ (∀ x ∈ t.pkg.cc, clusterOf x.core = clusterOf d.core → x.pa / 256 ≠ d.pa / 256) ∧ t.pkg.mem = s.pkg.mem ∧ t.core = s.core) ∧
  (∀ (s : State) (n : Nat) (b : Back), s.pkg.wb[n]? = some b →
    (∀ x ∈ s.pkg.wb.take n, clusterOf x.core = clusterOf b.core → b.ordered = false ∧ ∀ p ∈ x.bytes, ∀ q ∈ b.bytes, p.1 ≠ q.1) →
    ntsTo (focusOn b.core s) (b.bytes.map (·.1)) = [] → ∃ t, exec (.writeBackAccepted n) s = .next t ∧
    t.pkg.mem = b.bytes.foldl (fun m x => memWrite m x.1 x.2) s.pkg.mem ∧ t.pkg.wb = removeAt n s.pkg.wb ∧ t.core = s.core ∧ t.others = s.others)

/-! ## Errors, management, debugging -/

/-- R399 to R401, R405 to R407, R409 to R414: an L2 of a die switches its mode and back, every slice recording it; a patrol read of a granule records
what its code finds and marks an uncorrectable one, 8 bytes or a sector of 64 (DRAM, DEC-TED), changing no value; with the rows of a slice used up a
way goes, and capacity falls. A core with three suspect marks, or a failed self-test, between activations gives way to its spare; link retries count,
the eighth failure exhausts them; link failures record, ask for a replacement, and a lost package loses its route; flits go on by the table, within 8
hops, after which their destination is unreachable; routes change once their traffic has drained, to a sub-port that runs. R267, R402 to R404, R409,
R414: bring-up counts its states up to 4, fixing how the ports run, then follows a loss of capacity or a failure; the cap, the package id and the
power register take what they may, and a throttle that is on goes off once the mean is below the cap; the management registers read as their table has
them; clearing BSTAT clears the bank and a core's suspect marks; a loss of power leaves what is fused or durable, and the machine stops until it is
brought up again. The model's own choices that it rests on: notes/assumptions/50.md, notes/assumptions/51.md, notes/assumptions/52.md,
notes/assumptions/86.md. -/
def Obligations.ErrorEvents : Prop :=
  ((∀ (s : State) (die : Nat), die < 4 → s.pkg.decTed.contains die = false → ∃ t, exec (.l2DecTedSwitch die) s = .next t ∧ t.pkg.decTed = s.pkg.decTed ++ [die] ∧ t.core = s.core ∧
     t.pkg.mem = s.pkg.mem ∧ l2Ways t die = 14 ∧ (∀ i, i < 256 → ∃ b, look (sliceUnit die i) t.pkg.banks = some b ∧ b.record.isSome = true)) ∧
   (∀ (s : State) (die : Nat), s.pkg.decTed.contains die = true → ∃ t, exec (.l2SecDedReturn die) s = .next t ∧ t.pkg.decTed = s.pkg.decTed.filter (· != die) ∧ t.core = s.core ∧
     t.pkg.mem = s.pkg.mem ∧ l2Ways t die = 16 ∧ (∀ i, i < 256 → ∃ b, look (sliceUnit die i) t.pkg.banks = some b ∧ b.record.isSome = true)) ∧
   (∀ (s : State) (u a : Nat) (b : Bank), b = (look u s.pkg.banks).getD {} → unitHolds s u a = true → ∀ f, ∃ t, exec (.patrolRead u a f) s = .next t ∧ t.pkg.mem = s.pkg.mem ∧ t.core = s.core ∧
     (f = .clean → t = s) ∧
     (f = .corrected → ∃ c, look u t.pkg.banks = some c ∧ c.cecnt = min (b.cecnt + 1) (2 ^ 24 - 1) ∧ c.uecnt = b.uecnt ∧ t.pkg.poison = s.pkg.poison ∧ t.pkg.poisonSec = s.pkg.poisonSec) ∧
     (f = .uncorrectable → ∃ c, look u t.pkg.banks = some c ∧ c.uecnt = min (b.uecnt + 1) (2 ^ 32 - 1) ∧ c.cecnt = b.cecnt ∧
       (unitClass u = 3 ∨ s.pkg.decTed.contains (unitDie u) = true → t.pkg.poisonSec.contains (a / 64) = true) ∧
       (unitClass u = 2 → s.pkg.decTed.contains (unitDie u) = false → t.pkg.poison.contains (a / 8) = true) ∧
       (unitClass u = 2 → rowsUsed s.pkg u < 32 → rowsUsed t.pkg u = rowsUsed s.pkg u + 1) ∧
       (unitClass u = 2 → 32 ≤ rowsUsed s.pkg u → (s.pkg.waysLost.filter (· == u)).length < 2 → t.pkg.waysLost = s.pkg.waysLost ++ [u] ∧ t.pkg.repl % 4 = 3 ∧ (s.pkg.mgState = 4 → t.pkg.mgState = 5)))) ∧
   (∀ (s : State) (u a : Nat) (f : EccResult), unitHolds s u a = false → exec (.patrolRead u a f) s = .next s) ∧
   (∀ (s : State) (failed : Bool), (3 ≤ s.core.suspects ∨ failed = true) → s.core.act = none → s.core.dead = false → quiet s.core = true → s.pkg.spareUsed.contains (clusterOf s.core.id) = false →
     ∃ t, exec (.coreRetire ⟨s.core.id, failed⟩) s = .next t ∧ t.core.suspects = 0 ∧ t.pkg.spareUsed = s.pkg.spareUsed ++ [clusterOf s.core.id] ∧ t.pkg.repl % 2 = 1 ∧ t.pkg.alert = true ∧
       (s.core.resident = none → t.core.ls = s.core.ls)) ∧
   (∀ (s : State) (failed : Bool), (3 ≤ s.core.suspects ∨ failed = true) → s.core.act = none → s.core.dead = false → quiet s.core = true → s.pkg.spareUsed.contains (clusterOf s.core.id) = true →
     s.pkg.insts = [] → ∃ t, exec (.coreRetire ⟨s.core.id, failed⟩) s = .next t ∧ t.core.dead = true ∧ t.pkg.lost = s.pkg.lost ++ [s.core.id] ∧
       (s.pkg.mgState = 4 → t.pkg.mgState = 5)) ∧
   (∀ (s : State), s.core.suspects < 3 → exec (.coreRetire ⟨s.core.id, false⟩) s = .next s) ∧
   (∀ (s : State) (u : Nat) (b : Bank), b = (look u s.pkg.banks).getD {} → ∃ t c, exec (.linkRetry u true) s = .next t ∧ look u t.pkg.banks = some c ∧
     c.cecnt = min (b.cecnt + 1) (2 ^ 24 - 1) ∧ t.core = s.core ∧ t.pkg.msgs = s.pkg.msgs) ∧
   (∀ (s : State) (u n : Nat), n = (look u s.pkg.retries).getD 0 + 1 →
     (n < 8 → exec (.linkRetry u false) s = .next { s with pkg := { s.pkg with retries := put u n s.pkg.retries } }) ∧
     (8 ≤ n → unitClass u ≠ 6 → s.pkg.badLinks.contains u = false → ∃ t, exec (.linkRetry u false) s = .next t ∧ t.pkg.badLinks = s.pkg.badLinks ++ [u] ∧ t.core = s.core)) ∧
   (∀ (s : State) (u : Nat), s.pkg.badLinks.contains u = false → ∃ t b, exec (.linkFailure (.mesh u)) s = .next t ∧ t.pkg.badLinks = s.pkg.badLinks ++ [u] ∧ t.pkg.repl % 2 = 1 ∧
     t.core = s.core ∧ look u t.pkg.banks = some b ∧ b.record.isSome = true) ∧
   (∀ (s : State) (n : Nat), n ≤ 16 → s.pkg.lanes < 17 → ∃ t b, exec (.linkFailure (.lane n)) s = .next t ∧ t.pkg.lanes = s.pkg.lanes + 1 ∧ t.core = s.core ∧ t.pkg.repl % 2 = 1 ∧
     (s.pkg.lanes ≠ 0 → s.pkg.mgState = 4 → t.pkg.mgState = 5) ∧ look pklUnit t.pkg.banks = some b ∧ b.record.isSome = true) ∧
   (∀ (s : State) (d : Nat), ∃ t b, exec (.linkFailure (.package d)) s = .next t ∧ look d t.pkg.routes = none ∧ t.core = s.core ∧ look pklUnit t.pkg.banks = some b ∧ b.record.isSome = true) ∧
   (∀ (s : State) (f : Flit), f.dest ≠ s.pkg.pkgId.toNat →
     (f.hops < 8 → (look f.dest s.pkg.routes).isSome = true → exec (.flitForward f) s =
       .next { s with pkg := { s.pkg with flits := s.pkg.flits ++ [{ f with hops := f.hops + 1 }] } }) ∧
     (f.hops < 8 → look f.dest s.pkg.routes = none → exec (.flitForward f) s = .next s) ∧
     (8 ≤ f.hops → ∃ t, exec (.flitForward f) s = .next t ∧ look f.dest t.pkg.routes = none ∧ t.pkg.flits = s.pkg.flits ∧ t.pkg.msgs = s.pkg.msgs ∧ t.core = s.core)) ∧
   (∀ (s : State) (f : Flit) (core : Nat) (h : BitVec 128) (t0 t1 : Word), f.dest = s.pkg.pkgId.toNat → f.body = .message core h t0 t1 → ∃ t m, exec (.flitForward f) s = .next t ∧
     t.pkg.msgs = s.pkg.msgs ++ [m] ∧ m.dest = core ∧ m.msg.hdr = h ∧ m.msg.t0 = t0 ∧ m.msg.t1 = t1) ∧
   (∀ (s : State) (f : Flit) (st core : Nat) (h : BitVec 128) (t0 t1 : Word), f.dest = s.pkg.pkgId.toNat →
     (f.body = .item st core h t0 t1 → ∃ t m, exec (.flitForward f) s = .next t ∧ t.pkg.msgs = s.pkg.msgs ++ [m] ∧ m.dest = core ∧ m.msg.hdr = h ∧ m.msg.strm = some st) ∧
     (f.body = .armed core h t0 t1 → ∃ t m, exec (.flitForward f) s = .next t ∧ t.pkg.armOut = s.pkg.armOut ++ [m] ∧ m.dest = core ∧ m.msg.hdr = h ∧ m.msg.t0 = t0)) ∧
   (∀ (s : State) (f : Flit) (asid va inc : Nat), f.dest = s.pkg.pkgId.toNat → f.body = .ctrAdd asid va inc →
     (va % 8 ≠ 0 ∨ ctrPage s asid va = none → exec (.flitForward f) s = .next s) ∧
     (va % 8 = 0 → (ctrPage s asid va).isSome = true → ctrVal s asid va + inc < 2 ^ 64 → ∃ t, exec (.flitForward f) s = .next t ∧
       ctrVal t asid va = ctrVal s asid va + inc)) ∧
   (∀ (s : State) (d p : Nat), d ≠ s.pkg.pkgId.toNat → d < 4096 → trafficTo s d = false →
     (subPort s p = true → ∃ t, exec (.routeChange d (some p)) s = .next t ∧ look d t.pkg.routes = some p ∧ (∀ x ∈ t.pkg.cutOff, x.2 ≠ d)) ∧
     (subPort s p = false → exec (.routeChange d (some p)) s = .next s) ∧
     ∃ u, exec (.routeChange d none) s = .next u ∧ look d u.pkg.routes = none) ∧
   (∀ (s : State) (d : Nat) (p : Option Nat), trafficTo s d = true → exec (.routeChange d p) s = .next s)) ∧
  (∀ s : State,
     (s.pkg.powered = true → s.pkg.mgState < 4 → ∀ d f, exec (.bringUp d f) s =
       .next { s with pkg := { s.pkg with mgState := s.pkg.mgState + 1, ports := rootPorts, subWidths := pklPorts, repl := replNow s.pkg } }) ∧
     (s.pkg.powered = true → 4 ≤ s.pkg.mgState → ∀ d, exec (.bringUp d true) s = .next { s with pkg := { s.pkg with mgState := 6 } }) ∧
     (s.pkg.powered = true → s.pkg.mgState = 4 → s.pkg.repl.testBit 1 = true → exec (.bringUp true false) s = .next { s with pkg := { s.pkg with mgState := 5 } }) ∧
     (s.pkg.powered = true → s.pkg.mgState = 4 → s.pkg.repl.testBit 1 = false → exec (.bringUp true false) s = .next s) ∧
     (s.pkg.powered = false → ∀ d f, exec (.bringUp d f) s = .next { s with pkg := { s.pkg with powered := true, mgState := 0 } }) ∧
     (∀ m, m < 4096 → ∃ t, exec (.powerThrottle m) s = .next t ∧ t.core = s.core ∧ t.pkg = { s.pkg with
       pwr := m
       temp := t.pkg.temp
       throttled := if s.pkg.throttled then decide (s.pkg.pwrCap ≤ m) else decide (s.pkg.pwrCap < m) } ∧ t.pkg.temp < 256) ∧
     (∀ v, 600 ≤ v → v ≤ 2400 → exec (.mgPwrcapWrite v) s = .next { s with pkg := { s.pkg with pwrCap := v } }) ∧
     (∀ v, v < 600 ∨ (2400 < v ∧ v < 4096) → exec (.mgPwrcapWrite v) s = .next s) ∧
     (∀ v, s.pkg.mgState ≤ 3 → exec (.mgPkgidWrite v) s = .next { s with pkg := { s.pkg with pkgId := BitVec.ofNat 12 v } }) ∧
     (∀ v, 4 ≤ s.pkg.mgState → exec (.mgPkgidWrite v) s = .next s) ∧
     ((mgRead s.pkg 0x00).map (· % 2 ^ 16) = some 0x0740 ∧ mgRead s.pkg 0x10 = some s.pkg.pkgId.toNat ∧ mgRead s.pkg 0x20 = some s.pkg.pwrCap ∧ mgRead s.pkg 0x28 = some s.pkg.pwr ∧
       (s.pkg.mgState < 16 → mgRead s.pkg 0x18 = some s.pkg.mgState)) ∧
     (∀ u v, v % 2 = 0 → exec (.bstatClear u v) s = .next s) ∧
     (∀ u v, v % 2 = 1 → ∃ t, exec (.bstatClear u v) s = .next t ∧ look u t.pkg.banks = none ∧ t.core.ls = s.core.ls ∧ (u = coreUnit s.core.id → s.core.id < 16384 →
       t.core.suspects = 0)) ∧
     (∃ t, exec .powerLoss s = .next t ∧ t.pkg.powered = false ∧ t.core = { id := s.core.id } ∧ t.others = [] ∧ t.pkg.mem = [] ∧ t.pkg.spareUsed = s.pkg.spareUsed ∧
       t.pkg.spaces = s.pkg.spaces.map (fun x => { x with data := x.durable }) ∧ (s.agenda = [] → step t = .fault .powerOff)))

/-- R415 to R417: a halted core issues nothing, its waits at counters and at an unmatched CPL end and it leaves its gang; a clear that runs ends
before the halt; a step names the context that may issue, a resume ends the halt and says whether breaks are captured (notes/assumptions/95.md), and
both close the windows; a read of a halted core answers with a register, a byte or a command and changes nothing; an injection into a halted core
writes or flips what it names and records itself, one for an instruction waits for it; a debug write to the hardware region raises LSPROT, but for
SNAPSEL and the reserved bytes (R23; notes/assumptions/77.md); flipped check bits are corrected, or mark the granule. What the hardware region reads
as rests on notes/assumptions/72.md. R1, R14: an event of another core than the focal one is the same event with that core in the focus, which is then
given back. The model's own choices that it rests on: notes/assumptions/64.md. -/
def Obligations.Debugging : Prop :=
  (∀ s : State, s.wf = true →
     (clearing s.core = false → ∃ t, exec (.debugHalt s.core.id) s = .next t ∧ t.core.halted = true ∧ t.core.stepCtx = none ∧ nextCtx t = none ∧ t.core.gang = .alone ∧
       (∀ h, h < 11 → (∀ l ∈ (ctxAt t h).longs, l.written = true) ∧ laOf (ctxAt t h) = laOf (ctxAt s h) ∧ (ctxAt t h).pc = (ctxAt s h).pc ∧
         cancellable (ctxAt t h) = false)) ∧
     (clearing s.core = true → exec (.debugHalt s.core.id) s = .next s) ∧
     (∀ b, s.core.halted = true → ∃ t, exec (.debugResume ⟨s.core.id, b⟩) s = .next t ∧ t.core.halted = false ∧ t.core.stepCtx = none ∧ t.core.breakCapture = b ∧ t.core.ls = s.core.ls ∧ t.pkg = s.pkg ∧
       ∀ h, h < 11 → ctxAt t h = { ctxAt s h with longs := [] }) ∧
     (∀ b, s.core.halted = false → exec (.debugResume ⟨s.core.id, b⟩) s = .next s) ∧
     (∀ h, s.core.halted = true → ∃ t, exec (.debugStep s.core.id h) s = .next t ∧ t.core.stepCtx = some h ∧ t.core.halted = true ∧ t.core.ls = s.core.ls ∧ t.pkg = s.pkg ∧
       ∀ j, j < 11 → ctxAt t j = { ctxAt s j with longs := [] }) ∧
     (∀ h, s.core.halted = false → exec (.debugStep s.core.id h) s = .next s) ∧
     (∀ t v, s.core.halted = true →
       ((∃ h n, t = DebugTarget.wreg h n ∧ v = readLE s.core.ls ((ctxAt s h).wp.toNat + 8 * n) 8) ∨ (∃ h, t = .sreg h 0 ∧ v = (ctxAt s h).pc.toNat) ∨
         (∃ a, a < 0x1F000 ∧ t = .lsByte a ∧ v = (memRead s.core.ls a).toNat) ∨
         (∃ a, 0x1F000 ≤ a ∧ a < 0x20000 ∧ t = .lsByte a ∧ v = (hwByte s.core a).toNat) ∨ (∃ a, t = .memByte a ∧ v = (memRead s.pkg.mem a).toNat)) →
       exec (.debugRead s.core.id t) s = .next { s with pkg := { s.pkg with debugOut := s.pkg.debugOut ++ [v] } }) ∧
     (s.core.halted = false → ∀ t, exec (.debugRead s.core.id t) s = .next s) ∧
     (s.core.halted = true →
       (∀ h n v, (ctxAt s h).wp.toNat + 8 * n + 8 ≤ 0x1F000 → ∃ t, exec (.dataInjection s.core.id (.wreg h n) false ⟨v, none⟩) s = .next t ∧
         readLE t.core.ls ((ctxAt s h).wp.toNat + 8 * n) 8 = v % 2 ^ 64 ∧
         (∀ a, a < (ctxAt s h).wp.toNat + 8 * n ∨ (ctxAt s h).wp.toNat + 8 * n + 8 ≤ a → memRead t.core.ls a = memRead s.core.ls a) ∧
         ∃ b, look (coreUnit s.core.id) t.pkg.banks = some b ∧ b.record.isSome = true) ∧
       (∀ a v, a < 0x1F000 → ∃ t, exec (.dataInjection s.core.id (.lsByte a) true ⟨v, none⟩) s = .next t ∧ memRead t.core.ls a = memRead s.core.ls a ^^^ BitVec.ofNat 8 v) ∧
       (∀ v, ∃ t, exec (.dataInjection s.core.id (.lsByte 0x1FE40) false ⟨v, none⟩) s = .next t ∧ t.core.snapsel.toNat = v % 128 ∧ t.core.ls = s.core.ls) ∧
       (∀ a v x, lsDenied a = true →
         ((ctxAt s 0).live = false → ∃ t, exec (.dataInjection s.core.id (.lsByte a) x ⟨v, none⟩) s = .next t ∧ t.core = s.core) ∧
         ((ctxAt s 0).live = true → (∀ h, h < 11 → (ctxAt s h).live = true → (ctxAt s h).wp ≠ s.core.twp) →
           ∃ t, exec (.dataInjection s.core.id (.lsByte a) x ⟨v, none⟩) s = .next t ∧ (ctxAt t 0).pc = s.core.tvec ∧ (ctxAt t 0).wp = s.core.twp ∧ (ctxAt t 0).inTrap = true)) ∧
       (∀ h v, h < 11 → ∃ t, exec (.dataInjection s.core.id (.sreg h 0) false ⟨v, none⟩) s = .next t ∧ ctxAt t h = { ctxAt s h with pc := BitVec.ofNat 64 v } ∧ t.core.ls = s.core.ls)) ∧
     (s.core.halted = false → ∀ t x v, exec (.dataInjection s.core.id t x ⟨v, none⟩) s = .next s) ∧
     (∀ t x v h a, exec (.dataInjection s.core.id t x ⟨v, some (h, a)⟩) s = .next { s with core := { s.core with injections := s.core.injections ++ [⟨h, a, t, x, v⟩] } }) ∧
     (∀ a i j f, a < 0x1F000 → i < 64 → j < 64 → i ≠ j →
       (∃ t, exec (.checkBitInjection s.core.id (.lsByte a) ⟨2 ^ i, f⟩) s = .next t ∧ t.core = s.core) ∧
       (∃ t, exec (.checkBitInjection s.core.id (.lsByte a) ⟨2 ^ i + 2 ^ j, f⟩) s = .next t ∧ t.core.poison.contains (a / 8) = true ∧ t.core.ls = s.core.ls)) ∧
     (∀ asid va i f, i < 16 → ∃ t, exec (.checkBitInjection s.core.id (.icache asid va) ⟨2 ^ i, f⟩) s = .next t ∧ ∀ e ∈ t.core.icache, e.1 = asid → e.2.1 ≠ va)) ∧
  (∀ (s : State) (k : Nat), k ≠ s.core.id → (coreOf s k).id = k → ∀ (h n : Nat) (b : Bool) (a : SvcAnswer) (x : DebugTarget) (w : Option (Nat × Nat)) (f : EccResult), ∀ e ∈ [
       Instr.asyncTrap k, .longResultWrite k h, .idleEnd k h, .svcAnswer k h a, .mma k, .mzero k, .mmask k, .mout k, .msig k, .mlink k, .mnop k, .skimmerFetch k b, .mxuSave k,
       .ccopy k n, .ccopy2 k n, .cfill k n, .csig k n, .sectorDelivery k n, .sectorAccepted k n, .cwaitPoll k h, .spillRefill k, .dispatch k, .wdog k, .scrub k n,
       .slotRevocation k n, .stashFill k h, .debugHalt k, .debugResume ⟨k, b⟩, .debugStep k h, .debugRead k x, .dataInjection k x b ⟨n, w⟩, .checkBitInjection k x ⟨n, f⟩],
     ∃ t, exec e (focus k s) = .next t ∧
       exec e s = .next { t with core := (look s.core.id t.others).getD { id := s.core.id }, others := put k t.core (drop s.core.id t.others) })
end

