-- ==== Sys2Proof/Laws/Exec.lean ====
section
/-! SUPPORT. Which meaning each instruction calls: one lemma per constructor, so that no proof unfolds the whole dispatch. -/

namespace Sys2Proof.Machine

@[simp] theorem exec_sysNop (s : State) : exec .sysNop s = execSysNop s := rfl
@[simp] theorem exec_sysEnd (s : State) : exec .sysEnd s = execSysEnd s := rfl
@[simp] theorem exec_sysEndP (s : State) : exec .sysEndP s = execSysEndP s := rfl
@[simp] theorem exec_sysAbort (s : State) : exec .sysAbort s = execSysAbort s := rfl
@[simp] theorem exec_sysBrk (c : BitVec 4) (s : State) : exec (.sysBrk c) s = execSysBrk c s := rfl
@[simp] theorem exec_sysSvc (c : BitVec 4) (s : State) : exec (.sysSvc c) s = execSysSvc c s := rfl
@[simp] theorem exec_sysRett (s : State) : exec .sysRett s = execSysRett s := rfl
@[simp] theorem exec_sysIdle (s : State) : exec .sysIdle s = execSysIdle s := rfl
@[simp] theorem exec_sysSplit (s : State) : exec .sysSplit s = execSysSplit s := rfl
@[simp] theorem exec_sysFence (y : BitVec 4) (s : State) : exec (.sysFence y) s = execSysFence y s := rfl
@[simp] theorem exec_sysFenceRel (y : BitVec 4) (s : State) : exec (.sysFenceRel y) s = execSysFenceRel y s := rfl
@[simp] theorem exec_sysFenceAcq (y : BitVec 4) (s : State) : exec (.sysFenceAcq y) s = execSysFenceAcq y s := rfl
@[simp] theorem exec_sysFenceDrain (y : BitVec 4) (s : State) : exec (.sysFenceDrain y) s = execSysFenceDrain y s := rfl
@[simp] theorem exec_sysFenceIbar (s : State) : exec .sysFenceIbar s = execSysFenceIbar s := rfl
@[simp] theorem exec_sysVtype (t y : BitVec 4) (s : State) : exec (.sysVtype t y) s = execSysVtype t y s := rfl
@[simp] theorem exec_sysRep (p : Pre) (l y : BitVec 4) (s : State) : exec (.sysRep p l y) s = execSysRep p l y s := rfl
@[simp] theorem exec_aluAdd (p : Pre) (a b : BitVec 4) (s : State) : exec (.aluAdd p a b) s = execAluAdd p a b s := rfl
@[simp] theorem exec_aluSub (p : Pre) (a b : BitVec 4) (s : State) : exec (.aluSub p a b) s = execAluSub p a b s := rfl
@[simp] theorem exec_aluAnd (p : Pre) (a b : BitVec 4) (s : State) : exec (.aluAnd p a b) s = execAluAnd p a b s := rfl
@[simp] theorem exec_aluOr (p : Pre) (a b : BitVec 4) (s : State) : exec (.aluOr p a b) s = execAluOr p a b s := rfl
@[simp] theorem exec_aluXor (p : Pre) (a b : BitVec 4) (s : State) : exec (.aluXor p a b) s = execAluXor p a b s := rfl
@[simp] theorem exec_aluShl (p : Pre) (a b : BitVec 4) (s : State) : exec (.aluShl p a b) s = execAluShl p a b s := rfl
@[simp] theorem exec_aluShr (p : Pre) (a b : BitVec 4) (s : State) : exec (.aluShr p a b) s = execAluShr p a b s := rfl
@[simp] theorem exec_aluSar (p : Pre) (a b : BitVec 4) (s : State) : exec (.aluSar p a b) s = execAluSar p a b s := rfl
@[simp] theorem exec_aluMul (p : Pre) (a b : BitVec 4) (s : State) : exec (.aluMul p a b) s = execAluMul p a b s := rfl
@[simp] theorem exec_aluMulh (p : Pre) (a b : BitVec 4) (s : State) : exec (.aluMulh p a b) s = execAluMulh p a b s := rfl
@[simp] theorem exec_aluMulhn (p : Pre) (a b : BitVec 4) (s : State) : exec (.aluMulhn p a b) s = execAluMulhn p a b s := rfl
@[simp] theorem exec_aluMin (p : Pre) (a b : BitVec 4) (s : State) : exec (.aluMin p a b) s = execAluMin p a b s := rfl
@[simp] theorem exec_aluMax (p : Pre) (a b : BitVec 4) (s : State) : exec (.aluMax p a b) s = execAluMax p a b s := rfl
@[simp] theorem exec_aluMinn (p : Pre) (a b : BitVec 4) (s : State) : exec (.aluMinn p a b) s = execAluMinn p a b s := rfl
@[simp] theorem exec_aluMaxn (p : Pre) (a b : BitVec 4) (s : State) : exec (.aluMaxn p a b) s = execAluMaxn p a b s := rfl
@[simp] theorem exec_aluCmp (p : Pre) (a b : BitVec 4) (s : State) : exec (.aluCmp p a b) s = execAluCmp p a b s := rfl
@[simp] theorem exec_aluiAddi (p : Pre) (a i : BitVec 4) (s : State) : exec (.aluiAddi p a i) s = execAluiAddi p a i s := rfl
@[simp] theorem exec_aluiAndi (p : Pre) (a i : BitVec 4) (s : State) : exec (.aluiAndi p a i) s = execAluiAndi p a i s := rfl
@[simp] theorem exec_aluiOri (p : Pre) (a i : BitVec 4) (s : State) : exec (.aluiOri p a i) s = execAluiOri p a i s := rfl
@[simp] theorem exec_aluiXori (p : Pre) (a i : BitVec 4) (s : State) : exec (.aluiXori p a i) s = execAluiXori p a i s := rfl
@[simp] theorem exec_aluiShli (p : Pre) (a i : BitVec 4) (s : State) : exec (.aluiShli p a i) s = execAluiShli p a i s := rfl
@[simp] theorem exec_aluiShri (p : Pre) (a i : BitVec 4) (s : State) : exec (.aluiShri p a i) s = execAluiShri p a i s := rfl
@[simp] theorem exec_aluiSari (p : Pre) (a i : BitVec 4) (s : State) : exec (.aluiSari p a i) s = execAluiSari p a i s := rfl
@[simp] theorem exec_aluiMuli (p : Pre) (a i : BitVec 4) (s : State) : exec (.aluiMuli p a i) s = execAluiMuli p a i s := rfl
@[simp] theorem exec_aluiCmpi (p : Pre) (a i : BitVec 4) (s : State) : exec (.aluiCmpi p a i) s = execAluiCmpi p a i s := rfl
@[simp] theorem exec_aluiMini (p : Pre) (a i : BitVec 4) (s : State) : exec (.aluiMini p a i) s = execAluiMini p a i s := rfl
@[simp] theorem exec_aluiMaxi (p : Pre) (a i : BitVec 4) (s : State) : exec (.aluiMaxi p a i) s = execAluiMaxi p a i s := rfl
@[simp] theorem exec_aluiLda (p : Pre) (a i : BitVec 4) (s : State) : exec (.aluiLda p a i) s = execAluiLda p a i s := rfl
@[simp] theorem exec_movi (p : Pre) (a : BitVec 4) (i : BitVec 8) (s : State) : exec (.movi p a i) s = execMovi p a i s := rfl
@[simp] theorem exec_ldap (p : Pre) (a : BitVec 4) (i : BitVec 8) (s : State) : exec (.ldap p a i) s = execLdap p a i s := rfl
@[simp] theorem exec_fpuFadd (p : Pre) (a b : BitVec 4) (s : State) : exec (.fpuFadd p a b) s = execFpuFadd p a b s := rfl
@[simp] theorem exec_fpuFsub (p : Pre) (a b : BitVec 4) (s : State) : exec (.fpuFsub p a b) s = execFpuFsub p a b s := rfl
@[simp] theorem exec_fpuFmul (p : Pre) (a b : BitVec 4) (s : State) : exec (.fpuFmul p a b) s = execFpuFmul p a b s := rfl
@[simp] theorem exec_fpuFma (p : Pre) (a b : BitVec 4) (s : State) : exec (.fpuFma p a b) s = execFpuFma p a b s := rfl
@[simp] theorem exec_fpuFmin (p : Pre) (a b : BitVec 4) (s : State) : exec (.fpuFmin p a b) s = execFpuFmin p a b s := rfl
@[simp] theorem exec_fpuFmax (p : Pre) (a b : BitVec 4) (s : State) : exec (.fpuFmax p a b) s = execFpuFmax p a b s := rfl
@[simp] theorem exec_fpuFcmp (p : Pre) (a b : BitVec 4) (s : State) : exec (.fpuFcmp p a b) s = execFpuFcmp p a b s := rfl
@[simp] theorem exec_fpuFabs (p : Pre) (a b : BitVec 4) (s : State) : exec (.fpuFabs p a b) s = execFpuFabs p a b s := rfl
@[simp] theorem exec_fpuFneg (p : Pre) (a b : BitVec 4) (s : State) : exec (.fpuFneg p a b) s = execFpuFneg p a b s := rfl
@[simp] theorem exec_fpuFcvti (p : Pre) (a b : BitVec 4) (s : State) : exec (.fpuFcvti p a b) s = execFpuFcvti p a b s := rfl
@[simp] theorem exec_fpuFcvtf (p : Pre) (a b : BitVec 4) (s : State) : exec (.fpuFcvtf p a b) s = execFpuFcvtf p a b s := rfl
@[simp] theorem exec_fpuFcvt (p : Pre) (a b : BitVec 4) (s : State) : exec (.fpuFcvt p a b) s = execFpuFcvt p a b s := rfl
@[simp] theorem exec_fpuFclass (p : Pre) (a b : BitVec 4) (s : State) : exec (.fpuFclass p a b) s = execFpuFclass p a b s := rfl
@[simp] theorem exec_fpuFrnd (p : Pre) (a b : BitVec 4) (s : State) : exec (.fpuFrnd p a b) s = execFpuFrnd p a b s := rfl
@[simp] theorem exec_fpuFscl (p : Pre) (a b : BitVec 4) (s : State) : exec (.fpuFscl p a b) s = execFpuFscl p a b s := rfl
@[simp] theorem exec_brcB (p : Pre) (d : BitVec 8) (s : State) : exec (.brcB p d) s = execBrcB p d s := rfl
@[simp] theorem exec_brcEq (p : Pre) (d : BitVec 8) (s : State) : exec (.brcEq p d) s = execBrcEq p d s := rfl
@[simp] theorem exec_brcNe (p : Pre) (d : BitVec 8) (s : State) : exec (.brcNe p d) s = execBrcNe p d s := rfl
@[simp] theorem exec_brcLt (p : Pre) (d : BitVec 8) (s : State) : exec (.brcLt p d) s = execBrcLt p d s := rfl
@[simp] theorem exec_brcGe (p : Pre) (d : BitVec 8) (s : State) : exec (.brcGe p d) s = execBrcGe p d s := rfl
@[simp] theorem exec_brcGt (p : Pre) (d : BitVec 8) (s : State) : exec (.brcGt p d) s = execBrcGt p d s := rfl
@[simp] theorem exec_brcLe (p : Pre) (d : BitVec 8) (s : State) : exec (.brcLe p d) s = execBrcLe p d s := rfl
@[simp] theorem exec_brcLo (p : Pre) (d : BitVec 8) (s : State) : exec (.brcLo p d) s = execBrcLo p d s := rfl
@[simp] theorem exec_brcHs (p : Pre) (d : BitVec 8) (s : State) : exec (.brcHs p d) s = execBrcHs p d s := rfl
@[simp] theorem exec_brcHi (p : Pre) (d : BitVec 8) (s : State) : exec (.brcHi p d) s = execBrcHi p d s := rfl
@[simp] theorem exec_brcLs (p : Pre) (d : BitVec 8) (s : State) : exec (.brcLs p d) s = execBrcLs p d s := rfl
@[simp] theorem exec_brcUn (p : Pre) (d : BitVec 8) (s : State) : exec (.brcUn p d) s = execBrcUn p d s := rfl
@[simp] theorem exec_brcOr (p : Pre) (d : BitVec 8) (s : State) : exec (.brcOr p d) s = execBrcOr p d s := rfl
@[simp] theorem exec_brcVs (p : Pre) (d : BitVec 8) (s : State) : exec (.brcVs p d) s = execBrcVs p d s := rfl
@[simp] theorem exec_brcVc (p : Pre) (d : BitVec 8) (s : State) : exec (.brcVc p d) s = execBrcVc p d s := rfl
@[simp] theorem exec_brcCall (p : Pre) (d : BitVec 8) (s : State) : exec (.brcCall p d) s = execBrcCall p d s := rfl
@[simp] theorem exec_xferMov (p : Pre) (a b : BitVec 4) (s : State) : exec (.xferMov p a b) s = execXferMov p a b s := rfl
@[simp] theorem exec_xferJr (p : Pre) (b : BitVec 4) (s : State) : exec (.xferJr p b) s = execXferJr p b s := rfl
@[simp] theorem exec_xferCallr (p : Pre) (b : BitVec 4) (s : State) : exec (.xferCallr p b) s = execXferCallr p b s := rfl
@[simp] theorem exec_xferRet (p : Pre) (s : State) : exec (.xferRet p) s = execXferRet p s := rfl
@[simp] theorem exec_xferQcall (p : Pre) (b : BitVec 4) (s : State) : exec (.xferQcall p b) s = execXferQcall p b s := rfl
@[simp] theorem exec_xferMfs (p : Pre) (a b : BitVec 4) (s : State) : exec (.xferMfs p a b) s = execXferMfs p a b s := rfl
@[simp] theorem exec_xferMts (p : Pre) (a b : BitVec 4) (s : State) : exec (.xferMts p a b) s = execXferMts p a b s := rfl
@[simp] theorem exec_xferStart (p : Pre) (a b : BitVec 4) (s : State) : exec (.xferStart p a b) s = execXferStart p a b s := rfl
@[simp] theorem exec_xferJoinh (p : Pre) (b : BitVec 4) (s : State) : exec (.xferJoinh p b) s = execXferJoinh p b s := rfl
@[simp] theorem exec_xferCpl (p : Pre) (b : BitVec 4) (s : State) : exec (.xferCpl p b) s = execXferCpl p b s := rfl
@[simp] theorem exec_xferClz (p : Pre) (a b : BitVec 4) (s : State) : exec (.xferClz p a b) s = execXferClz p a b s := rfl
@[simp] theorem exec_xferPopc (p : Pre) (a b : BitVec 4) (s : State) : exec (.xferPopc p a b) s = execXferPopc p a b s := rfl
@[simp] theorem exec_xferBswap (p : Pre) (a b : BitVec 4) (s : State) : exec (.xferBswap p a b) s = execXferBswap p a b s := rfl
@[simp] theorem exec_xferTst (p : Pre) (a b : BitVec 4) (s : State) : exec (.xferTst p a b) s = execXferTst p a b s := rfl
@[simp] theorem exec_xferPurge (p : Pre) (b : BitVec 4) (s : State) : exec (.xferPurge p b) s = execXferPurge p b s := rfl
@[simp] theorem exec_xferIinv (p : Pre) (a b : BitVec 4) (s : State) : exec (.xferIinv p a b) s = execXferIinv p a b s := rfl
@[simp] theorem exec_ld (p : Pre) (a b l : BitVec 4) (s : State) : exec (.ld p a b l) s = execLd p a b l s := rfl
@[simp] theorem exec_ldV (p : Pre) (a b l : BitVec 4) (s : State) : exec (.ldV p a b l) s = execLdV p a b l s := rfl
@[simp] theorem exec_st (p : Pre) (a b l : BitVec 4) (s : State) : exec (.st p a b l) s = execSt p a b l s := rfl
@[simp] theorem exec_stV (p : Pre) (a b l : BitVec 4) (s : State) : exec (.stV p a b l) s = execStV p a b l s := rfl
@[simp] theorem exec_vecAdd (p : Pre) (a b : BitVec 4) (s : State) : exec (.vecAdd p a b) s = execVecAdd p a b s := rfl
@[simp] theorem exec_vecSub (p : Pre) (a b : BitVec 4) (s : State) : exec (.vecSub p a b) s = execVecSub p a b s := rfl
@[simp] theorem exec_vecMul (p : Pre) (a b : BitVec 4) (s : State) : exec (.vecMul p a b) s = execVecMul p a b s := rfl
@[simp] theorem exec_vecFma (p : Pre) (a b : BitVec 4) (s : State) : exec (.vecFma p a b) s = execVecFma p a b s := rfl
@[simp] theorem exec_vecMin (p : Pre) (a b : BitVec 4) (s : State) : exec (.vecMin p a b) s = execVecMin p a b s := rfl
@[simp] theorem exec_vecMax (p : Pre) (a b : BitVec 4) (s : State) : exec (.vecMax p a b) s = execVecMax p a b s := rfl
@[simp] theorem exec_vecAnd (p : Pre) (a b : BitVec 4) (s : State) : exec (.vecAnd p a b) s = execVecAnd p a b s := rfl
@[simp] theorem exec_vecOr (p : Pre) (a b : BitVec 4) (s : State) : exec (.vecOr p a b) s = execVecOr p a b s := rfl
@[simp] theorem exec_vecXor (p : Pre) (a b : BitVec 4) (s : State) : exec (.vecXor p a b) s = execVecXor p a b s := rfl
@[simp] theorem exec_vecShl (p : Pre) (a b : BitVec 4) (s : State) : exec (.vecShl p a b) s = execVecShl p a b s := rfl
@[simp] theorem exec_vecShr (p : Pre) (a b : BitVec 4) (s : State) : exec (.vecShr p a b) s = execVecShr p a b s := rfl
@[simp] theorem exec_vecSar (p : Pre) (a b : BitVec 4) (s : State) : exec (.vecSar p a b) s = execVecSar p a b s := rfl
@[simp] theorem exec_vecAbs (p : Pre) (a b : BitVec 4) (s : State) : exec (.vecAbs p a b) s = execVecAbs p a b s := rfl
@[simp] theorem exec_vecNeg (p : Pre) (a b : BitVec 4) (s : State) : exec (.vecNeg p a b) s = execVecNeg p a b s := rfl
@[simp] theorem exec_vecMov (p : Pre) (a b : BitVec 4) (s : State) : exec (.vecMov p a b) s = execVecMov p a b s := rfl
@[simp] theorem exec_vecBc (p : Pre) (a b : BitVec 4) (s : State) : exec (.vecBc p a b) s = execVecBc p a b s := rfl
@[simp] theorem exec_vecCeq (p : Pre) (a b : BitVec 4) (s : State) : exec (.vecCeq p a b) s = execVecCeq p a b s := rfl
@[simp] theorem exec_vecClt (p : Pre) (a b : BitVec 4) (s : State) : exec (.vecClt p a b) s = execVecClt p a b s := rfl
@[simp] theorem exec_vecCle (p : Pre) (a b : BitVec 4) (s : State) : exec (.vecCle p a b) s = execVecCle p a b s := rfl
@[simp] theorem exec_vecSel (p : Pre) (a b : BitVec 4) (s : State) : exec (.vecSel p a b) s = execVecSel p a b s := rfl
@[simp] theorem exec_vecRsum (p : Pre) (a b : BitVec 4) (s : State) : exec (.vecRsum p a b) s = execVecRsum p a b s := rfl
@[simp] theorem exec_vecRmax (p : Pre) (a b : BitVec 4) (s : State) : exec (.vecRmax p a b) s = execVecRmax p a b s := rfl
@[simp] theorem exec_vecRmin (p : Pre) (a b : BitVec 4) (s : State) : exec (.vecRmin p a b) s = execVecRmin p a b s := rfl
@[simp] theorem exec_vecPerm (p : Pre) (a b : BitVec 4) (s : State) : exec (.vecPerm p a b) s = execVecPerm p a b s := rfl
@[simp] theorem exec_vecSld (p : Pre) (a b : BitVec 4) (s : State) : exec (.vecSld p a b) s = execVecSld p a b s := rfl
@[simp] theorem exec_vecExt (p : Pre) (a b : BitVec 4) (s : State) : exec (.vecExt p a b) s = execVecExt p a b s := rfl
@[simp] theorem exec_vecIns (p : Pre) (a b : BitVec 4) (s : State) : exec (.vecIns p a b) s = execVecIns p a b s := rfl
@[simp] theorem exec_vecDot (p : Pre) (a b : BitVec 4) (s : State) : exec (.vecDot p a b) s = execVecDot p a b s := rfl
@[simp] theorem exec_vecIota (p : Pre) (a b : BitVec 4) (s : State) : exec (.vecIota p a b) s = execVecIota p a b s := rfl
@[simp] theorem exec_vecCvt (p : Pre) (a b : BitVec 4) (s : State) : exec (.vecCvt p a b) s = execVecCvt p a b s := rfl
@[simp] theorem exec_vecQnt (p : Pre) (a b : BitVec 4) (s : State) : exec (.vecQnt p a b) s = execVecQnt p a b s := rfl
@[simp] theorem exec_vecDqnt (p : Pre) (a b : BitVec 4) (s : State) : exec (.vecDqnt p a b) s = execVecDqnt p a b s := rfl
@[simp] theorem exec_vecPack (p : Pre) (a b : BitVec 4) (s : State) : exec (.vecPack p a b) s = execVecPack p a b s := rfl
@[simp] theorem exec_vecUnpk (p : Pre) (a b : BitVec 4) (s : State) : exec (.vecUnpk p a b) s = execVecUnpk p a b s := rfl
@[simp] theorem exec_vecLut (p : Pre) (a b : BitVec 4) (s : State) : exec (.vecLut p a b) s = execVecLut p a b s := rfl
@[simp] theorem exec_vecLdtb (p : Pre) (b : BitVec 4) (s : State) : exec (.vecLdtb p b) s = execVecLdtb p b s := rfl
@[simp] theorem exec_vecRnd (p : Pre) (a b : BitVec 4) (s : State) : exec (.vecRnd p a b) s = execVecRnd p a b s := rfl
@[simp] theorem exec_vecAddi (p : Pre) (a b : BitVec 4) (s : State) : exec (.vecAddi p a b) s = execVecAddi p a b s := rfl
@[simp] theorem exec_vecMuli (p : Pre) (a b : BitVec 4) (s : State) : exec (.vecMuli p a b) s = execVecMuli p a b s := rfl
@[simp] theorem exec_vecMini (p : Pre) (a b : BitVec 4) (s : State) : exec (.vecMini p a b) s = execVecMini p a b s := rfl
@[simp] theorem exec_vecMaxi (p : Pre) (a b : BitVec 4) (s : State) : exec (.vecMaxi p a b) s = execVecMaxi p a b s := rfl
@[simp] theorem exec_vecCeqi (p : Pre) (a b : BitVec 4) (s : State) : exec (.vecCeqi p a b) s = execVecCeqi p a b s := rfl
@[simp] theorem exec_vecClti (p : Pre) (a b : BitVec 4) (s : State) : exec (.vecClti p a b) s = execVecClti p a b s := rfl
@[simp] theorem exec_vecBci (p : Pre) (a b : BitVec 4) (s : State) : exec (.vecBci p a b) s = execVecBci p a b s := rfl
@[simp] theorem exec_vecFmai (p : Pre) (a b : BitVec 4) (s : State) : exec (.vecFmai p a b) s = execVecFmai p a b s := rfl
@[simp] theorem exec_longDiv (p : Pre) (a b l : BitVec 4) (s : State) : exec (.longDiv p a b l) s = execLongDiv p a b l s := rfl
@[simp] theorem exec_longDivn (p : Pre) (a b l : BitVec 4) (s : State) : exec (.longDivn p a b l) s = execLongDivn p a b l s := rfl
@[simp] theorem exec_longRem (p : Pre) (a b l : BitVec 4) (s : State) : exec (.longRem p a b l) s = execLongRem p a b l s := rfl
@[simp] theorem exec_longRemn (p : Pre) (a b l : BitVec 4) (s : State) : exec (.longRemn p a b l) s = execLongRemn p a b l s := rfl
@[simp] theorem exec_longFdiv (p : Pre) (a b l : BitVec 4) (s : State) : exec (.longFdiv p a b l) s = execLongFdiv p a b l s := rfl
@[simp] theorem exec_longFsqrt (p : Pre) (a b l : BitVec 4) (s : State) : exec (.longFsqrt p a b l) s = execLongFsqrt p a b l s := rfl
@[simp] theorem exec_longVexp2 (p : Pre) (a b l : BitVec 4) (s : State) : exec (.longVexp2 p a b l) s = execLongVexp2 p a b l s := rfl
@[simp] theorem exec_longVrcp (p : Pre) (a b l : BitVec 4) (s : State) : exec (.longVrcp p a b l) s = execLongVrcp p a b l s := rfl
@[simp] theorem exec_longVrsq (p : Pre) (a b l : BitVec 4) (s : State) : exec (.longVrsq p a b l) s = execLongVrsq p a b l s := rfl
@[simp] theorem exec_longVlog2 (p : Pre) (a b l : BitVec 4) (s : State) : exec (.longVlog2 p a b l) s = execLongVlog2 p a b l s := rfl
@[simp] theorem exec_longCwait (p : Pre) (a b : BitVec 4) (s : State) : exec (.longCwait p a b) s = execLongCwait p a b s := rfl
@[simp] theorem exec_longCread (p : Pre) (a b l : BitVec 4) (s : State) : exec (.longCread p a b l) s = execLongCread p a b l s := rfl
@[simp] theorem exec_longCtest (p : Pre) (a b l : BitVec 4) (s : State) : exec (.longCtest p a b l) s = execLongCtest p a b l s := rfl
@[simp] theorem exec_longWpwait (p : Pre) (a b : BitVec 4) (s : State) : exec (.longWpwait p a b) s = execLongWpwait p a b s := rfl
@[simp] theorem exec_longSopen (p : Pre) (a b l : BitVec 4) (s : State) : exec (.longSopen p a b l) s = execLongSopen p a b l s := rfl
@[simp] theorem exec_sendMsg (p : Pre) (a b l : BitVec 4) (s : State) : exec (.sendMsg p a b l) s = execSendMsg p a b l s := rfl
@[simp] theorem exec_sendQmsg (p : Pre) (a b l : BitVec 4) (s : State) : exec (.sendQmsg p a b l) s = execSendQmsg p a b l s := rfl
@[simp] theorem exec_sendItem (p : Pre) (a b l : BitVec 4) (s : State) : exec (.sendItem p a b l) s = execSendItem p a b l s := rfl
@[simp] theorem exec_sendMpush (p : Pre) (a b l : BitVec 4) (s : State) : exec (.sendMpush p a b l) s = execSendMpush p a b l s := rfl
@[simp] theorem exec_sendCpush (p : Pre) (a b l : BitVec 4) (s : State) : exec (.sendCpush p a b l) s = execSendCpush p a b l s := rfl
@[simp] theorem exec_sendSpush (p : Pre) (a b l : BitVec 4) (s : State) : exec (.sendSpush p a b l) s = execSendSpush p a b l s := rfl
@[simp] theorem exec_sendCadd (p : Pre) (a b l : BitVec 4) (s : State) : exec (.sendCadd p a b l) s = execSendCadd p a b l s := rfl
@[simp] theorem exec_sendCaddr (p : Pre) (a b l : BitVec 4) (s : State) : exec (.sendCaddr p a b l) s = execSendCaddr p a b l s := rfl
@[simp] theorem exec_sendArm (p : Pre) (a b l : BitVec 4) (s : State) : exec (.sendArm p a b l) s = execSendArm p a b l s := rfl
@[simp] theorem exec_sendReply (p : Pre) (a b l : BitVec 4) (s : State) : exec (.sendReply p a b l) s = execSendReply p a b l s := rfl
@[simp] theorem exec_memSmap (p : Pre) (a b : BitVec 4) (s : State) : exec (.memSmap p a b) s = execMemSmap p a b s := rfl
@[simp] theorem exec_memSunmap (p : Pre) (a : BitVec 4) (s : State) : exec (.memSunmap p a) s = execMemSunmap p a s := rfl
@[simp] theorem exec_memSflush (p : Pre) (a b : BitVec 4) (s : State) : exec (.memSflush p a b) s = execMemSflush p a b s := rfl
@[simp] theorem exec_memSinv (p : Pre) (a b : BitVec 4) (s : State) : exec (.memSinv p a b) s = execMemSinv p a b s := rfl
@[simp] theorem exec_memSclose (p : Pre) (a : BitVec 4) (s : State) : exec (.memSclose p a) s = execMemSclose p a s := rfl
@[simp] theorem exec_memLsclr (p : Pre) (a b : BitVec 4) (s : State) : exec (.memLsclr p a b) s = execMemLsclr p a b s := rfl
@[simp] theorem exec_asyncTrap (k : Nat) (s : State) : exec (.asyncTrap k) s = execAsyncTrap k s := rfl
@[simp] theorem exec_illegalInstruction (e : Ill) (s : State) : exec (.illegalInstruction e) s = execIllegalInstruction e s := rfl
@[simp] theorem exec_longResultWrite (k h : Nat) (s : State) : exec (.longResultWrite k h) s = execLongResultWrite k h s := rfl
@[simp] theorem exec_idleEnd (k h : Nat) (s : State) : exec (.idleEnd k h) s = execIdleEnd k h s := rfl
@[simp] theorem exec_svcAnswer (k h : Nat) (a : SvcAnswer) (s : State) : exec (.svcAnswer k h a) s = execSvcAnswer k h a s := rfl
@[simp] theorem exec_writeBackAccepted (n : Nat) (s : State) : exec (.writeBackAccepted n) s = execWriteBackAccepted n s := rfl
@[simp] theorem exec_mma (k : Nat) (s : State) : exec (.mma k) s = execMma k s := rfl
@[simp] theorem exec_mzero (k : Nat) (s : State) : exec (.mzero k) s = execMzero k s := rfl
@[simp] theorem exec_mmask (k : Nat) (s : State) : exec (.mmask k) s = execMmask k s := rfl
@[simp] theorem exec_mout (k : Nat) (s : State) : exec (.mout k) s = execMout k s := rfl
@[simp] theorem exec_msig (k : Nat) (s : State) : exec (.msig k) s = execMsig k s := rfl
@[simp] theorem exec_mlink (k : Nat) (s : State) : exec (.mlink k) s = execMlink k s := rfl
@[simp] theorem exec_mnop (k : Nat) (s : State) : exec (.mnop k) s = execMnop k s := rfl
@[simp] theorem exec_operandTileArrival (k : Nat) (south : Bool) (s : State) : exec (.operandTileArrival k south) s = execOperandTileArrival k south s := rfl
@[simp] theorem exec_skimmerFetch (k : Nat) (opB : Bool) (s : State) : exec (.skimmerFetch k opB) s = execSkimmerFetch k opB s := rfl
@[simp] theorem exec_mxuSave (k : Nat) (s : State) : exec (.mxuSave k) s = execMxuSave k s := rfl
@[simp] theorem exec_rectangleRepair (k : Nat) (s : State) : exec (.rectangleRepair k) s = execRectangleRepair k s := rfl
@[simp] theorem exec_ccopy (k ch : Nat) (s : State) : exec (.ccopy k ch) s = execCcopy k ch s := rfl
@[simp] theorem exec_ccopy2 (k ch : Nat) (s : State) : exec (.ccopy2 k ch) s = execCcopy2 k ch s := rfl
@[simp] theorem exec_cfill (k ch : Nat) (s : State) : exec (.cfill k ch) s = execCfill k ch s := rfl
@[simp] theorem exec_csig (k ch : Nat) (s : State) : exec (.csig k ch) s = execCsig k ch s := rfl
@[simp] theorem exec_sectorDelivery (k ch : Nat) (s : State) : exec (.sectorDelivery k ch) s = execSectorDelivery k ch s := rfl
@[simp] theorem exec_sectorAccepted (k ch : Nat) (s : State) : exec (.sectorAccepted k ch) s = execSectorAccepted k ch s := rfl
@[simp] theorem exec_nrd (n : Nat) (s : State) : exec (.nrd n) s = execNrd n s := rfl
@[simp] theorem exec_nwr (n : Nat) (s : State) : exec (.nwr n) s = execNwr n s := rfl
@[simp] theorem exec_nfl (n : Nat) (s : State) : exec (.nfl n) s = execNfl n s := rfl
@[simp] theorem exec_zdec (n : Nat) (s : State) : exec (.zdec n) s = execZdec n s := rfl
@[simp] theorem exec_csum (n : Nat) (s : State) : exec (.csum n) s = execCsum n s := rfl
@[simp] theorem exec_storageCompletion (n : Nat) (s : State) : exec (.storageCompletion n) s = execStorageCompletion n s := rfl
@[simp] theorem exec_commandTimeout (n nvst : Nat) (s : State) : exec (.commandTimeout n nvst) s = execCommandTimeout n nvst s := rfl
@[simp] theorem exec_counterAdd (n : Nat) (s : State) : exec (.counterAdd n) s = execCounterAdd n s := rfl
@[simp] theorem exec_armRegistration (n : Nat) (s : State) : exec (.armRegistration n) s = execArmRegistration n s := rfl
@[simp] theorem exec_armEmission (n : Nat) (s : State) : exec (.armEmission n) s = execArmEmission n s := rfl
@[simp] theorem exec_cwaitPoll (k h : Nat) (s : State) : exec (.cwaitPoll k h) s = execCwaitPoll k h s := rfl
@[simp] theorem exec_messageArrival (n : Nat) (s : State) : exec (.messageArrival n) s = execMessageArrival n s := rfl
@[simp] theorem exec_spillRefill (k : Nat) (s : State) : exec (.spillRefill k) s = execSpillRefill k s := rfl
@[simp] theorem exec_deliveryRetry (n : Nat) (s : State) : exec (.deliveryRetry n) s = execDeliveryRetry n s := rfl
@[simp] theorem exec_dispatch (k : Nat) (s : State) : exec (.dispatch k) s = execDispatch k s := rfl
@[simp] theorem exec_itemAssign (n : Nat) (s : State) : exec (.itemAssign n) s = execItemAssign n s := rfl
@[simp] theorem exec_exportArrival (n : Nat) (s : State) : exec (.exportArrival n) s = execExportArrival n s := rfl
@[simp] theorem exec_vote (n : Nat) (s : State) : exec (.vote n) s = execVote n s := rfl
@[simp] theorem exec_verdict (n : Nat) (s : State) : exec (.verdict n) s = execVerdict n s := rfl
@[simp] theorem exec_voteTimeout (n : Nat) (s : State) : exec (.voteTimeout n) s = execVoteTimeout n s := rfl
@[simp] theorem exec_wdog (k : Nat) (s : State) : exec (.wdog k) s = execWdog k s := rfl
@[simp] theorem exec_preemption (k : Nat) (s : State) : exec (.preemption k) s = execPreemption k s := rfl
@[simp] theorem exec_resumption (k : Nat) (s : State) : exec (.resumption k) s = execResumption k s := rfl
@[simp] theorem exec_scrub (k inst : Nat) (s : State) : exec (.scrub k inst) s = execScrub k inst s := rfl
@[simp] theorem exec_versionSwitch (k inst : Nat) (s : State) : exec (.versionSwitch k inst) s = execVersionSwitch k inst s := rfl
@[simp] theorem exec_purgeMark (k inst : Nat) (s : State) : exec (.purgeMark k inst) s = execPurgeMark k inst s := rfl
@[simp] theorem exec_purgeAck (k inst : Nat) (s : State) : exec (.purgeAck k inst) s = execPurgeAck k inst s := rfl
@[simp] theorem exec_queueTake (qid : Nat) (s : State) : exec (.queueTake qid) s = execQueueTake qid s := rfl
@[simp] theorem exec_quantumExpiry (k inst : Nat) (s : State) : exec (.quantumExpiry k inst) s = execQuantumExpiry k inst s := rfl
@[simp] theorem exec_slotRevocation (k slot : Nat) (s : State) : exec (.slotRevocation k slot) s = execSlotRevocation k slot s := rfl
@[simp] theorem exec_loadRequest (r : LoadReq) (s : State) : exec (.loadRequest r) s = execLoadRequest r s := rfl
@[simp] theorem exec_switchRequest (inst : Nat) (s : State) : exec (.switchRequest inst) s = execSwitchRequest inst s := rfl
@[simp] theorem exec_unstageRequest (inst : Nat) (s : State) : exec (.unstageRequest inst) s = execUnstageRequest inst s := rfl
@[simp] theorem exec_versionRemoval (inst : Nat) (s : State) : exec (.versionRemoval inst) s = execVersionRemoval inst s := rfl
@[simp] theorem exec_tableWalk (n : Nat) (s : State) : exec (.tableWalk n) s = execTableWalk n s := rfl
@[simp] theorem exec_pgfault (n : Nat) (fix : Option PageSpec) (s : State) : exec (.pgfault n fix) s = execPgfault n fix s := rfl
@[simp] theorem exec_fetch (k h : Nat) (fix : Option PageSpec) (s : State) : exec (.fetch k h fix) s = execFetch k h fix s := rfl
@[simp] theorem exec_tlbShootdown (n : Nat) (s : State) : exec (.tlbShootdown n) s = execTlbShootdown n s := rfl
@[simp] theorem exec_migr (asid va die frame : Nat) (s : State) : exec (.migr asid va die frame) s = execMigr asid va die frame s := rfl
@[simp] theorem exec_stubRemoval (n : Nat) (s : State) : exec (.stubRemoval n) s = execStubRemoval n s := rfl
@[simp] theorem exec_ntCombine (n : Nat) (s : State) : exec (.ntCombine n) s = execNtCombine n s := rfl
@[simp] theorem exec_clusterCacheEviction (n : Nat) (s : State) : exec (.clusterCacheEviction n) s = execClusterCacheEviction n s := rfl
@[simp] theorem exec_stashFill (k h : Nat) (s : State) : exec (.stashFill k h) s = execStashFill k h s := rfl
@[simp] theorem exec_l2DecTedSwitch (die : Nat) (s : State) : exec (.l2DecTedSwitch die) s = execL2DecTedSwitch die s := rfl
@[simp] theorem exec_l2SecDedReturn (die : Nat) (s : State) : exec (.l2SecDedReturn die) s = execL2SecDedReturn die s := rfl
@[simp] theorem exec_patrolRead (unit addr : Nat) (found : EccResult) (s : State) : exec (.patrolRead unit addr found) s = execPatrolRead unit addr found s := rfl
@[simp] theorem exec_coreRetire (r : Retirement) (s : State) : exec (.coreRetire r) s = execCoreRetire r s := rfl
@[simp] theorem exec_linkRetry (unit : Nat) (ok : Bool) (s : State) : exec (.linkRetry unit ok) s = execLinkRetry unit ok s := rfl
@[simp] theorem exec_linkFailure (f : LinkFault) (s : State) : exec (.linkFailure f) s = execLinkFailure f s := rfl
@[simp] theorem exec_flitForward (f : Flit) (s : State) : exec (.flitForward f) s = execFlitForward f s := rfl
@[simp] theorem exec_bringUp (degraded failed : Bool) (s : State) : exec (.bringUp degraded failed) s = execBringUp degraded failed s := rfl
@[simp] theorem exec_powerThrottle (mean : Nat) (s : State) : exec (.powerThrottle mean) s = execPowerThrottle mean s := rfl
@[simp] theorem exec_mgPwrcapWrite (v : Nat) (s : State) : exec (.mgPwrcapWrite v) s = execMgPwrcapWrite v s := rfl
@[simp] theorem exec_mgPkgidWrite (v : Nat) (s : State) : exec (.mgPkgidWrite v) s = execMgPkgidWrite v s := rfl
@[simp] theorem exec_bstatClear (unit v : Nat) (s : State) : exec (.bstatClear unit v) s = execBstatClear unit v s := rfl
@[simp] theorem exec_debugHalt (k : Nat) (s : State) : exec (.debugHalt k) s = execDebugHalt k s := rfl
@[simp] theorem exec_debugResume (r : Resumed) (s : State) : exec (.debugResume r) s = execDebugResume r s := rfl
@[simp] theorem exec_debugStep (k h : Nat) (s : State) : exec (.debugStep k h) s = execDebugStep k h s := rfl
@[simp] theorem exec_debugRead (k : Nat) (t : DebugTarget) (s : State) : exec (.debugRead k t) s = execDebugRead k t s := rfl
@[simp] theorem exec_dataInjection (k : Nat) (t : DebugTarget) (xor : Bool) (v : Injected) (s : State) : exec (.dataInjection k t xor v) s = execDataInjection k t xor v s := rfl
@[simp] theorem exec_checkBitInjection (k : Nat) (t : DebugTarget) (f : Flipped) (s : State) : exec (.checkBitInjection k t f) s = execCheckBitInjection k t f s := rfl
@[simp] theorem exec_instanceDestroy (inst : Nat) (s : State) : exec (.instanceDestroy inst) s = execInstanceDestroy inst s := rfl
@[simp] theorem exec_powerLoss (s : State) : exec .powerLoss s = execPowerLoss s := rfl
@[simp] theorem exec_routeChange (dest : Nat) (sub : Option Nat) (s : State) : exec (.routeChange dest sub) s = execRouteChange dest sub s := rfl

end Sys2Proof.Machine
end

