-- ==== Sys2Proof/Laws/Memory.lean ====
section
/-! SUPPORT. Laws of memory: writes keep the canonical form, a read finds the last write, a write leaves every other byte. -/

namespace Sys2Proof.Machine

theorem wfFrom_le {lo lo' : Nat} {m : Memory} (h : Memory.wfFrom lo m = true) (hl : lo' ≤ lo) : Memory.wfFrom lo' m = true := by
  cases m with
  | nil => rfl
  | cons c m =>
    obtain ⟨k, v⟩ := c
    simp only [Memory.wfFrom, Bool.and_eq_true, decide_eq_true_eq] at h ⊢
    exact ⟨⟨le_trans hl h.1.1, h.1.2⟩, h.2⟩

/-- An address below every entry reads 0. -/
theorem memRead_below {lo : Nat} {m : Memory} (h : Memory.wfFrom lo m = true) {a : Nat} (ha : a < lo) : memRead m a = 0 := by
  cases m with
  | nil => rfl
  | cons c m =>
    obtain ⟨k, v⟩ := c
    simp only [Memory.wfFrom, Bool.and_eq_true, decide_eq_true_eq] at h
    have h1 : a ≠ k := by omega
    have h2 : a < k := by omega
    simp [memRead, h1, h2]

theorem memWrite_wfFrom {m : Memory} : ∀ {lo : Nat}, Memory.wfFrom lo m = true → ∀ {a : Nat} (b : Byte), lo ≤ a →
    Memory.wfFrom lo (memWrite m a b) = true := by
  induction m with
  | nil =>
    intro lo _ a b ha
    by_cases hb : b = 0#8 <;> simp [memWrite, hb, Memory.wfFrom, ha]
  | cons c m ih =>
    intro lo h a b ha
    obtain ⟨k, v⟩ := c
    simp only [Memory.wfFrom, Bool.and_eq_true, decide_eq_true_eq, bne_iff_ne] at h
    simp only [memWrite]
    split
    · rename_i hlt
      split
      · simp only [Memory.wfFrom, Bool.and_eq_true, decide_eq_true_eq, bne_iff_ne]
        exact h
      · rename_i hb
        simp only [Memory.wfFrom, Bool.and_eq_true, decide_eq_true_eq, bne_iff_ne]
        exact ⟨⟨ha, hb⟩, ⟨by omega, h.1.2⟩, h.2⟩
    · split
      · split
        · exact wfFrom_le h.2 (by omega)
        · rename_i hb
          simp only [Memory.wfFrom, Bool.and_eq_true, decide_eq_true_eq, bne_iff_ne]
          exact ⟨⟨h.1.1, hb⟩, h.2⟩
      · simp only [Memory.wfFrom, Bool.and_eq_true, decide_eq_true_eq, bne_iff_ne]
        exact ⟨h.1, ih h.2 b (by omega)⟩

/-- A write keeps the canonical form. -/
theorem memWrite_wf {m : Memory} (h : Memory.wf m = true) (a : Nat) (b : Byte) : Memory.wf (memWrite m a b) = true :=
  memWrite_wfFrom h b (Nat.zero_le a)

theorem memRead_memWrite_from {m : Memory} : ∀ {lo : Nat}, Memory.wfFrom lo m = true → ∀ (a : Nat) (b : Byte) (x : Nat),
    memRead (memWrite m a b) x = if x = a then b else memRead m x := by
  induction m with
  | nil =>
    intro lo _ a b x
    by_cases hb : b = 0#8 <;> by_cases hx : x = a <;> simp [memWrite, memRead, hb, hx]
  | cons c m ih =>
    intro lo h a b x
    obtain ⟨k, v⟩ := c
    simp only [Memory.wfFrom, Bool.and_eq_true, decide_eq_true_eq, bne_iff_ne] at h
    simp only [memWrite]
    split
    · rename_i hlt
      by_cases hb : b = 0#8
      · by_cases hx : x = a
        · have h1 : x ≠ k := by omega
          have h2 : x < k := by omega
          simp [memRead, hb, hx, hlt]
          intro h3; omega
        · simp [memRead, hb, hx]
      · by_cases hx : x = a
        · simp [memRead, hb, hx]
        · by_cases h2 : x < a
          · have h3 : x ≠ k := by omega
            have h4 : x < k := by omega
            simp [memRead, hb, hx, h2, h3, h4]
          · simp [memRead, hb, hx, h2]
    · split
      · rename_i hak
        subst hak
        by_cases hb : b = 0#8
        · by_cases hx : x = a
          · simp [hb, hx, memRead_below h.2 (Nat.lt_succ_self a)]
          · by_cases h2 : x < a
            · simp [memRead, hb, hx, h2, memRead_below h.2 (show x < a + 1 by omega)]
            · simp [memRead, hb, hx, h2]
        · by_cases hx : x = a <;> simp [memRead, hb, hx]
      · rename_i h1 h2
        simp only [memRead]
        by_cases hx : x = k
        · have : x ≠ a := by omega
          simp [hx]; intro h3; omega
        · by_cases hx2 : x < k
          · have : x ≠ a := by omega
            simp [hx, hx2, this]
          · simp [hx, hx2, ih h.2 a b x]

/-- A read after a write. -/
theorem memRead_memWrite {m : Memory} (h : Memory.wf m = true) (a : Nat) (b : Byte) (x : Nat) :
    memRead (memWrite m a b) x = if x = a then b else memRead m x := memRead_memWrite_from h a b x

theorem writeBytes_wf {bs : List Byte} : ∀ {m : Memory}, Memory.wf m = true → ∀ (a : Nat), Memory.wf (writeBytes m a bs) = true := by
  induction bs with
  | nil => intro m h a; exact h
  | cons b bs ih => intro m h a; exact ih (memWrite_wf h a b) (a + 1)

/-- A read outside the bytes of a write. -/
theorem memRead_writeBytes_outside {bs : List Byte} : ∀ {m : Memory}, Memory.wf m = true → ∀ {a x : Nat}, x < a ∨ a + bs.length ≤ x →
    memRead (writeBytes m a bs) x = memRead m x := by
  induction bs with
  | nil => intro m _ a x _; rfl
  | cons b bs ih =>
    intro m h a x hx
    simp only [List.length_cons] at hx
    rw [writeBytes, ih (memWrite_wf h a b) (by omega), memRead_memWrite h]
    have : x ≠ a := by omega
    simp [this]

/-- A read inside the bytes of a write. -/
theorem memRead_writeBytes_inside {bs : List Byte} : ∀ {m : Memory}, Memory.wf m = true → ∀ {a i : Nat} (hi : i < bs.length),
    memRead (writeBytes m a bs) (a + i) = bs[i] := by
  induction bs with
  | nil => intro m _ a i hi; simp at hi
  | cons b bs ih =>
    intro m h a i hi
    cases i with
    | zero =>
      rw [writeBytes, memRead_writeBytes_outside (memWrite_wf h a b) (by omega), memRead_memWrite h]
      simp
    | succ i =>
      simp only [List.length_cons] at hi
      have := ih (memWrite_wf h a b) (a := a + 1) (i := i) (by omega)
      rw [writeBytes, show a + (i + 1) = a + 1 + i by omega, this]
      simp

theorem readBytes_length (m : Memory) : ∀ (n a : Nat), (readBytes m a n).length = n
  | 0, _ => rfl
  | n + 1, a => by simp [readBytes, readBytes_length m n]

theorem readBytes_getElem (m : Memory) : ∀ (n a i : Nat) (h : i < (readBytes m a n).length), (readBytes m a n)[i] = memRead m (a + i)
  | 0, _, i, h => by simp [readBytes] at h
  | n + 1, a, 0, _ => by simp [readBytes]
  | n + 1, a, i + 1, h => by
    simp only [readBytes, List.getElem_cons_succ]
    rw [readBytes_getElem m n (a + 1) i]
    congr 1; omega

/-- The bytes of a write are read back. -/
theorem readBytes_writeBytes {m : Memory} (h : Memory.wf m = true) (a : Nat) (bs : List Byte) :
    readBytes (writeBytes m a bs) a bs.length = bs := by
  apply List.ext_getElem (readBytes_length _ _ _)
  intro i h1 h2
  rw [readBytes_getElem, memRead_writeBytes_inside h h2]

/-- Bytes elsewhere are read as before. -/
theorem readBytes_writeBytes_outside {m : Memory} (h : Memory.wf m = true) {a x n : Nat} {bs : List Byte}
    (hx : x + n ≤ a ∨ a + bs.length ≤ x) : readBytes (writeBytes m a bs) x n = readBytes m x n := by
  apply List.ext_getElem (by simp [readBytes_length])
  intro i h1 h2
  have : i < n := by simpa [readBytes_length] using h1
  rw [readBytes_getElem, readBytes_getElem, memRead_writeBytes_outside h (by omega)]

theorem numLE_readBytes (m : Memory) : ∀ (n a : Nat), numLE (readBytes m a n) = readLE m a n
  | 0, _ => rfl
  | n + 1, a => by simp [readBytes, numLE, readLE, numLE_readBytes m n]

theorem bytesLE_length : ∀ (n x : Nat), (bytesLE x n).length = n
  | 0, _ => rfl
  | n + 1, x => by simp [bytesLE, bytesLE_length n]

theorem numLE_bytesLE : ∀ (n x : Nat), numLE (bytesLE x n) = x % 256 ^ n
  | 0, x => by simp [bytesLE, numLE, Nat.mod_one]
  | n + 1, x => by
    rw [bytesLE, numLE, numLE_bytesLE n, BitVec.toNat_ofNat, show (256 : Nat) ^ (n + 1) = 256 * 256 ^ n by rw [pow_succ, Nat.mul_comm],
      Nat.mod_mul]

theorem numLE_lt : ∀ (bs : List Byte), numLE bs < 256 ^ bs.length
  | [] => by simp [numLE]
  | b :: bs => by
    have h1 := numLE_lt bs
    have h2 := b.isLt
    simp only [numLE, List.length_cons, pow_succ]
    omega

theorem bytesLE_numLE : ∀ (bs : List Byte), bytesLE (numLE bs) bs.length = bs
  | [] => rfl
  | b :: bs => by
    have h2 := b.isLt
    have e1 : BitVec.ofNat 8 (numLE (b :: bs)) = b := by
      apply BitVec.eq_of_toNat_eq
      rw [BitVec.toNat_ofNat, numLE]
      omega
    have e2 : numLE (b :: bs) / 256 = numLE bs := by rw [numLE]; omega
    rw [List.length_cons, bytesLE, e1, e2, bytesLE_numLE bs]

theorem readLE_lt (m : Memory) (a n : Nat) : readLE m a n < 256 ^ n := by
  rw [← numLE_readBytes]
  simpa [readBytes_length] using numLE_lt (readBytes m a n)

/-- A number is read back from where it has been written. -/
theorem readLE_writeLE {m : Memory} (h : Memory.wf m = true) (a n x : Nat) : readLE (writeLE m a n x) a n = x % 256 ^ n := by
  have := readBytes_writeBytes h a (bytesLE x n)
  rw [bytesLE_length] at this
  rw [← numLE_readBytes, writeLE, this, numLE_bytesLE]

/-- A number elsewhere is read as before. -/
theorem readLE_writeBytes_outside {m : Memory} (h : Memory.wf m = true) {a x n : Nat} {bs : List Byte}
    (hx : x + n ≤ a ∨ a + bs.length ≤ x) : readLE (writeBytes m a bs) x n = readLE m x n := by
  rw [← numLE_readBytes, ← numLE_readBytes, readBytes_writeBytes_outside h hx]

theorem filter_wfFrom (p : Host.Cell → Bool) {m : Memory} : ∀ {lo : Nat}, Memory.wfFrom lo m = true → Memory.wfFrom lo (m.filter p) = true := by
  induction m with
  | nil => intro lo _; rfl
  | cons c m ih =>
    intro lo h
    obtain ⟨k, v⟩ := c
    simp only [Memory.wfFrom, Bool.and_eq_true, decide_eq_true_eq, bne_iff_ne] at h
    simp only [List.filter_cons]
    split
    · simp only [Memory.wfFrom, Bool.and_eq_true, decide_eq_true_eq, bne_iff_ne]
      exact ⟨h.1, ih h.2⟩
    · exact ih (wfFrom_le h.2 (by omega))

/-- Clearing a range keeps the canonical form. -/
theorem memClear_wf {m : Memory} (h : Memory.wf m = true) (a n : Nat) : Memory.wf (memClear m a n) = true := filter_wfFrom _ h

theorem shift_wfFrom (a : Nat) {m : Memory} : ∀ {lo : Nat}, Memory.wfFrom lo m = true → m.all (fun c => a ≤ c.1) = true →
    Memory.wfFrom (lo - a) (m.map (fun c => (c.1 - a, c.2))) = true := by
  induction m with
  | nil => intro lo _ _; rfl
  | cons c m ih =>
    intro lo h ha
    obtain ⟨k, v⟩ := c
    simp only [Memory.wfFrom, Bool.and_eq_true, decide_eq_true_eq, bne_iff_ne] at h
    simp only [List.all_cons, Bool.and_eq_true, decide_eq_true_eq] at ha
    simp only [List.map_cons, Memory.wfFrom, Bool.and_eq_true, decide_eq_true_eq, bne_iff_ne]
    refine ⟨⟨by omega, h.1.2⟩, ?_⟩
    rw [show k - a + 1 = k + 1 - a by omega]
    exact ih h.2 ha.2

/-- A slice is in canonical form. -/
theorem memSlice_wf {m : Memory} (h : Memory.wf m = true) (a n : Nat) : Memory.wf (memSlice m a n) = true := by
  have := shift_wfFrom a (filter_wfFrom (fun c => decide (a ≤ c.1) && decide (c.1 < a + n)) h)
    (by simp only [List.all_filter, List.all_eq_true]; intro c _; simp; omega)
  simpa [memSlice, Memory.wf] using this

theorem memRead_memClear_from (a n : Nat) {m : Memory} : ∀ {lo : Nat}, Memory.wfFrom lo m = true → ∀ (x : Nat),
    memRead (memClear m a n) x = if a ≤ x ∧ x < a + n then 0 else memRead m x := by
  induction m with
  | nil => intro lo _ x; simp [memClear, memRead]
  | cons c m ih =>
    intro lo h x
    obtain ⟨k, v⟩ := c
    simp only [Memory.wfFrom, Bool.and_eq_true, decide_eq_true_eq, bne_iff_ne] at h
    have e : memClear ((k, v) :: m) a n = if k < a ∨ a + n ≤ k then (k, v) :: memClear m a n else memClear m a n := by
      simp [memClear, List.filter_cons]
    have i := ih h.2 x
    have below : x < k + 1 → memRead m x = 0 := fun hx => memRead_below h.2 hx
    rw [e]
    split
    · simp only [memRead]
      by_cases h1 : x = k
      · subst h1; simp; omega
      · by_cases h2 : x < k <;> simp [h1, h2, i]
    · rw [i]
      simp only [memRead]
      by_cases h1 : x = k
      · subst h1
        have h3 : a ≤ x ∧ x < a + n := by omega
        simp [h3]
      · by_cases h2 : x < k
        · simp [h1, h2, below (by omega)]
        · simp [h1, h2]

/-- A cleared byte reads 0, every other byte reads as before. -/
theorem memRead_memClear {m : Memory} (h : Memory.wf m = true) (a n x : Nat) :
    memRead (memClear m a n) x = if a ≤ x ∧ x < a + n then 0 else memRead m x := memRead_memClear_from a n h x

/-- Canonical memories that read the same everywhere are equal. -/
theorem memory_ext {m : Memory} : ∀ {l : Memory} {lo : Nat}, Memory.wfFrom lo m = true → Memory.wfFrom lo l = true →
    (∀ x, memRead m x = memRead l x) → m = l := by
  induction m with
  | nil =>
    intro l lo _ hl h
    cases l with
    | nil => rfl
    | cons c l =>
      obtain ⟨k, v⟩ := c
      simp only [Memory.wfFrom, Bool.and_eq_true, decide_eq_true_eq, bne_iff_ne] at hl
      have := h k
      simp [memRead] at this
      exact absurd this.symm hl.1.2
  | cons c m ih =>
    intro l lo hm hl h
    obtain ⟨k, v⟩ := c
    simp only [Memory.wfFrom, Bool.and_eq_true, decide_eq_true_eq, bne_iff_ne] at hm
    cases l with
    | nil =>
      have := h k
      simp [memRead] at this
      exact absurd this hm.1.2
    | cons d l =>
      obtain ⟨j, w⟩ := d
      simp only [Memory.wfFrom, Bool.and_eq_true, decide_eq_true_eq, bne_iff_ne] at hl
      have hkj : k = j := by
        rcases Nat.lt_trichotomy k j with hlt | he | hgt
        · have := h k
          have n1 : k ≠ j := by omega
          simp [memRead, n1, hlt] at this
          exact absurd this hm.1.2
        · exact he
        · have := h j
          have n1 : j ≠ k := by omega
          simp [memRead, n1, hgt] at this
          exact absurd this.symm hl.1.2
      subst hkj
      have hv : v = w := by simpa [memRead] using h k
      subst hv
      congr 1
      apply ih hm.2 hl.2
      intro x
      by_cases hx : x < k + 1
      · rw [memRead_below hm.2 hx, memRead_below hl.2 hx]
      · have := h x
        have n1 : x ≠ k := by omega
        have n2 : ¬ x < k := by omega
        simpa [memRead, n1, n2] using this

end Sys2Proof.Machine
end

