-- ==== Sys2Proof/Laws/State.lean ====
section
/-! SUPPORT. What each update of the state leaves: one lemma per field and update. -/

namespace Sys2Proof.Machine

@[simp] theorem updCore_core (f : Core → Core) (s : State) : (updCore f s).core = f s.core := rfl
@[simp] theorem updCore_others (f : Core → Core) (s : State) : (updCore f s).others = s.others := rfl
@[simp] theorem updCore_pkg (f : Core → Core) (s : State) : (updCore f s).pkg = s.pkg := rfl
@[simp] theorem updCore_agenda (f : Core → Core) (s : State) : (updCore f s).agenda = s.agenda := rfl
@[simp] theorem updCore_turns (f : Core → Core) (s : State) : (updCore f s).turns = s.turns := rfl
@[simp] theorem updCore_freeCtr (f : Core → Core) (s : State) : (updCore f s).freeCtr = s.freeCtr := rfl
@[simp] theorem updPkg_pkg (f : Package → Package) (s : State) : (updPkg f s).pkg = f s.pkg := rfl
@[simp] theorem updPkg_core (f : Package → Package) (s : State) : (updPkg f s).core = s.core := rfl
@[simp] theorem updPkg_others (f : Package → Package) (s : State) : (updPkg f s).others = s.others := rfl
@[simp] theorem updPkg_agenda (f : Package → Package) (s : State) : (updPkg f s).agenda = s.agenda := rfl
@[simp] theorem updPkg_turns (f : Package → Package) (s : State) : (updPkg f s).turns = s.turns := rfl
@[simp] theorem updPkg_freeCtr (f : Package → Package) (s : State) : (updPkg f s).freeCtr = s.freeCtr := rfl
@[simp] theorem updAct_act (f : Act → Act) (s : State) : (updAct f s).core.act = s.core.act.map f := rfl
@[simp] theorem updAct_others (f : Act → Act) (s : State) : (updAct f s).others = s.others := rfl
@[simp] theorem updAct_pkg (f : Act → Act) (s : State) : (updAct f s).pkg = s.pkg := rfl
@[simp] theorem updAct_agenda (f : Act → Act) (s : State) : (updAct f s).agenda = s.agenda := rfl
@[simp] theorem updAct_turns (f : Act → Act) (s : State) : (updAct f s).turns = s.turns := rfl
@[simp] theorem updAct_freeCtr (f : Act → Act) (s : State) : (updAct f s).freeCtr = s.freeCtr := rfl
@[simp] theorem updAct_core_id (f : Act → Act) (s : State) : (updAct f s).core.id = s.core.id := rfl
@[simp] theorem updAct_core_ls (f : Act → Act) (s : State) : (updAct f s).core.ls = s.core.ls := rfl
@[simp] theorem updAct_core_ctxs (f : Act → Act) (s : State) : (updAct f s).core.ctxs = s.core.ctxs := rfl
@[simp] theorem updAct_core_cur (f : Act → Act) (s : State) : (updAct f s).core.cur = s.core.cur := rfl
@[simp] theorem updAct_core_tvec (f : Act → Act) (s : State) : (updAct f s).core.tvec = s.core.tvec := rfl
@[simp] theorem updAct_core_twp (f : Act → Act) (s : State) : (updAct f s).core.twp = s.core.twp := rfl
@[simp] theorem updAct_core_sleep (f : Act → Act) (s : State) : (updAct f s).core.sleep = s.core.sleep := rfl
@[simp] theorem updAct_core_qstat (f : Act → Act) (s : State) : (updAct f s).core.qstat = s.core.qstat := rfl
@[simp] theorem updAct_core_fpst (f : Act → Act) (s : State) : (updAct f s).core.fpst = s.core.fpst := rfl
@[simp] theorem updAct_core_actCount (f : Act → Act) (s : State) : (updAct f s).core.actCount = s.core.actCount := rfl
@[simp] theorem updAct_core_lut (f : Act → Act) (s : State) : (updAct f s).core.lut = s.core.lut := rfl
@[simp] theorem updAct_core_snapsel (f : Act → Act) (s : State) : (updAct f s).core.snapsel = s.core.snapsel := rfl
@[simp] theorem updAct_core_wins (f : Act → Act) (s : State) : (updAct f s).core.wins = s.core.wins := rfl
@[simp] theorem updAct_core_chans (f : Act → Act) (s : State) : (updAct f s).core.chans = s.core.chans := rfl
@[simp] theorem updAct_core_mxu (f : Act → Act) (s : State) : (updAct f s).core.mxu = s.core.mxu := rfl
@[simp] theorem updAct_core_stoHeld (f : Act → Act) (s : State) : (updAct f s).core.stoHeld = s.core.stoHeld := rfl
@[simp] theorem updAct_core_pushRel (f : Act → Act) (s : State) : (updAct f s).core.pushRel = s.core.pushRel := rfl
@[simp] theorem updAct_core_memQ (f : Act → Act) (s : State) : (updAct f s).core.memQ = s.core.memQ := rfl
@[simp] theorem updAct_core_sent (f : Act → Act) (s : State) : (updAct f s).core.sent = s.core.sent := rfl
@[simp] theorem updAct_core_inPushes (f : Act → Act) (s : State) : (updAct f s).core.inPushes = s.core.inPushes := rfl
@[simp] theorem updAct_core_injections (f : Act → Act) (s : State) : (updAct f s).core.injections = s.core.injections := rfl
@[simp] theorem updAct_core_inbound (f : Act → Act) (s : State) : (updAct f s).core.inbound = s.core.inbound := rfl
@[simp] theorem updAct_core_spill (f : Act → Act) (s : State) : (updAct f s).core.spill = s.core.spill := rfl
@[simp] theorem updAct_core_ready (f : Act → Act) (s : State) : (updAct f s).core.ready = s.core.ready := rfl
@[simp] theorem updAct_core_items (f : Act → Act) (s : State) : (updAct f s).core.items = s.core.items := rfl
@[simp] theorem updAct_core_disp (f : Act → Act) (s : State) : (updAct f s).core.disp = s.core.disp := rfl
@[simp] theorem updAct_core_fwd (f : Act → Act) (s : State) : (updAct f s).core.fwd = s.core.fwd := rfl
@[simp] theorem updAct_core_gang (f : Act → Act) (s : State) : (updAct f s).core.gang = s.core.gang := rfl
@[simp] theorem updAct_core_slots (f : Act → Act) (s : State) : (updAct f s).core.slots = s.core.slots := rfl
@[simp] theorem updAct_core_insts (f : Act → Act) (s : State) : (updAct f s).core.insts = s.core.insts := rfl
@[simp] theorem updAct_core_resident (f : Act → Act) (s : State) : (updAct f s).core.resident = s.core.resident := rfl
@[simp] theorem updAct_core_lastAsid (f : Act → Act) (s : State) : (updAct f s).core.lastAsid = s.core.lastAsid := rfl
@[simp] theorem updAct_core_icache (f : Act → Act) (s : State) : (updAct f s).core.icache = s.core.icache := rfl
@[simp] theorem updAct_core_halted (f : Act → Act) (s : State) : (updAct f s).core.halted = s.core.halted := rfl
@[simp] theorem updAct_core_breakCapture (f : Act → Act) (s : State) : (updAct f s).core.breakCapture = s.core.breakCapture := rfl
@[simp] theorem updAct_core_stepCtx (f : Act → Act) (s : State) : (updAct f s).core.stepCtx = s.core.stepCtx := rfl
@[simp] theorem updAct_core_suspects (f : Act → Act) (s : State) : (updAct f s).core.suspects = s.core.suspects := rfl
@[simp] theorem updAct_core_dead (f : Act → Act) (s : State) : (updAct f s).core.dead = s.core.dead := rfl
@[simp] theorem updAct_core_poison (f : Act → Act) (s : State) : (updAct f s).core.poison = s.core.poison := rfl
@[simp] theorem setCtxAt_others (h : Nat) (f : Ctx → Ctx) (s : State) : (setCtxAt h f s).others = s.others := rfl
@[simp] theorem setCtxAt_pkg (h : Nat) (f : Ctx → Ctx) (s : State) : (setCtxAt h f s).pkg = s.pkg := rfl
@[simp] theorem setCtxAt_agenda (h : Nat) (f : Ctx → Ctx) (s : State) : (setCtxAt h f s).agenda = s.agenda := rfl
@[simp] theorem setCtxAt_turns (h : Nat) (f : Ctx → Ctx) (s : State) : (setCtxAt h f s).turns = s.turns := rfl
@[simp] theorem setCtxAt_freeCtr (h : Nat) (f : Ctx → Ctx) (s : State) : (setCtxAt h f s).freeCtr = s.freeCtr := rfl
@[simp] theorem setCtxAt_core_id (h : Nat) (f : Ctx → Ctx) (s : State) : (setCtxAt h f s).core.id = s.core.id := rfl
@[simp] theorem setCtxAt_core_ls (h : Nat) (f : Ctx → Ctx) (s : State) : (setCtxAt h f s).core.ls = s.core.ls := rfl
@[simp] theorem setCtxAt_core_cur (h : Nat) (f : Ctx → Ctx) (s : State) : (setCtxAt h f s).core.cur = s.core.cur := rfl
@[simp] theorem setCtxAt_core_tvec (h : Nat) (f : Ctx → Ctx) (s : State) : (setCtxAt h f s).core.tvec = s.core.tvec := rfl
@[simp] theorem setCtxAt_core_twp (h : Nat) (f : Ctx → Ctx) (s : State) : (setCtxAt h f s).core.twp = s.core.twp := rfl
@[simp] theorem setCtxAt_core_sleep (h : Nat) (f : Ctx → Ctx) (s : State) : (setCtxAt h f s).core.sleep = s.core.sleep := rfl
@[simp] theorem setCtxAt_core_qstat (h : Nat) (f : Ctx → Ctx) (s : State) : (setCtxAt h f s).core.qstat = s.core.qstat := rfl
@[simp] theorem setCtxAt_core_fpst (h : Nat) (f : Ctx → Ctx) (s : State) : (setCtxAt h f s).core.fpst = s.core.fpst := rfl
@[simp] theorem setCtxAt_core_actCount (h : Nat) (f : Ctx → Ctx) (s : State) : (setCtxAt h f s).core.actCount = s.core.actCount := rfl
@[simp] theorem setCtxAt_core_lut (h : Nat) (f : Ctx → Ctx) (s : State) : (setCtxAt h f s).core.lut = s.core.lut := rfl
@[simp] theorem setCtxAt_core_snapsel (h : Nat) (f : Ctx → Ctx) (s : State) : (setCtxAt h f s).core.snapsel = s.core.snapsel := rfl
@[simp] theorem setCtxAt_core_wins (h : Nat) (f : Ctx → Ctx) (s : State) : (setCtxAt h f s).core.wins = s.core.wins := rfl
@[simp] theorem setCtxAt_core_chans (h : Nat) (f : Ctx → Ctx) (s : State) : (setCtxAt h f s).core.chans = s.core.chans := rfl
@[simp] theorem setCtxAt_core_mxu (h : Nat) (f : Ctx → Ctx) (s : State) : (setCtxAt h f s).core.mxu = s.core.mxu := rfl
@[simp] theorem setCtxAt_core_stoHeld (h : Nat) (f : Ctx → Ctx) (s : State) : (setCtxAt h f s).core.stoHeld = s.core.stoHeld := rfl
@[simp] theorem setCtxAt_core_pushRel (h : Nat) (f : Ctx → Ctx) (s : State) : (setCtxAt h f s).core.pushRel = s.core.pushRel := rfl
@[simp] theorem setCtxAt_core_memQ (h : Nat) (f : Ctx → Ctx) (s : State) : (setCtxAt h f s).core.memQ = s.core.memQ := rfl
@[simp] theorem setCtxAt_core_sent (h : Nat) (f : Ctx → Ctx) (s : State) : (setCtxAt h f s).core.sent = s.core.sent := rfl
@[simp] theorem setCtxAt_core_inPushes (h : Nat) (f : Ctx → Ctx) (s : State) : (setCtxAt h f s).core.inPushes = s.core.inPushes := rfl
@[simp] theorem setCtxAt_core_injections (h : Nat) (f : Ctx → Ctx) (s : State) : (setCtxAt h f s).core.injections = s.core.injections := rfl
@[simp] theorem setCtxAt_core_inbound (h : Nat) (f : Ctx → Ctx) (s : State) : (setCtxAt h f s).core.inbound = s.core.inbound := rfl
@[simp] theorem setCtxAt_core_spill (h : Nat) (f : Ctx → Ctx) (s : State) : (setCtxAt h f s).core.spill = s.core.spill := rfl
@[simp] theorem setCtxAt_core_ready (h : Nat) (f : Ctx → Ctx) (s : State) : (setCtxAt h f s).core.ready = s.core.ready := rfl
@[simp] theorem setCtxAt_core_items (h : Nat) (f : Ctx → Ctx) (s : State) : (setCtxAt h f s).core.items = s.core.items := rfl
@[simp] theorem setCtxAt_core_disp (h : Nat) (f : Ctx → Ctx) (s : State) : (setCtxAt h f s).core.disp = s.core.disp := rfl
@[simp] theorem setCtxAt_core_fwd (h : Nat) (f : Ctx → Ctx) (s : State) : (setCtxAt h f s).core.fwd = s.core.fwd := rfl
@[simp] theorem setCtxAt_core_act (h : Nat) (f : Ctx → Ctx) (s : State) : (setCtxAt h f s).core.act = s.core.act := rfl
@[simp] theorem setCtxAt_core_gang (h : Nat) (f : Ctx → Ctx) (s : State) : (setCtxAt h f s).core.gang = s.core.gang := rfl
@[simp] theorem setCtxAt_core_slots (h : Nat) (f : Ctx → Ctx) (s : State) : (setCtxAt h f s).core.slots = s.core.slots := rfl
@[simp] theorem setCtxAt_core_insts (h : Nat) (f : Ctx → Ctx) (s : State) : (setCtxAt h f s).core.insts = s.core.insts := rfl
@[simp] theorem setCtxAt_core_resident (h : Nat) (f : Ctx → Ctx) (s : State) : (setCtxAt h f s).core.resident = s.core.resident := rfl
@[simp] theorem setCtxAt_core_lastAsid (h : Nat) (f : Ctx → Ctx) (s : State) : (setCtxAt h f s).core.lastAsid = s.core.lastAsid := rfl
@[simp] theorem setCtxAt_core_icache (h : Nat) (f : Ctx → Ctx) (s : State) : (setCtxAt h f s).core.icache = s.core.icache := rfl
@[simp] theorem setCtxAt_core_halted (h : Nat) (f : Ctx → Ctx) (s : State) : (setCtxAt h f s).core.halted = s.core.halted := rfl
@[simp] theorem setCtxAt_core_breakCapture (h : Nat) (f : Ctx → Ctx) (s : State) : (setCtxAt h f s).core.breakCapture = s.core.breakCapture := rfl
@[simp] theorem setCtxAt_core_stepCtx (h : Nat) (f : Ctx → Ctx) (s : State) : (setCtxAt h f s).core.stepCtx = s.core.stepCtx := rfl
@[simp] theorem setCtxAt_core_suspects (h : Nat) (f : Ctx → Ctx) (s : State) : (setCtxAt h f s).core.suspects = s.core.suspects := rfl
@[simp] theorem setCtxAt_core_dead (h : Nat) (f : Ctx → Ctx) (s : State) : (setCtxAt h f s).core.dead = s.core.dead := rfl
@[simp] theorem setCtxAt_core_poison (h : Nat) (f : Ctx → Ctx) (s : State) : (setCtxAt h f s).core.poison = s.core.poison := rfl
@[simp] theorem setCtx_others (f : Ctx → Ctx) (s : State) : (setCtx f s).others = s.others := rfl
@[simp] theorem setCtx_pkg (f : Ctx → Ctx) (s : State) : (setCtx f s).pkg = s.pkg := rfl
@[simp] theorem setCtx_agenda (f : Ctx → Ctx) (s : State) : (setCtx f s).agenda = s.agenda := rfl
@[simp] theorem setCtx_turns (f : Ctx → Ctx) (s : State) : (setCtx f s).turns = s.turns := rfl
@[simp] theorem setCtx_freeCtr (f : Ctx → Ctx) (s : State) : (setCtx f s).freeCtr = s.freeCtr := rfl
@[simp] theorem setCtx_core_id (f : Ctx → Ctx) (s : State) : (setCtx f s).core.id = s.core.id := rfl
@[simp] theorem setCtx_core_ls (f : Ctx → Ctx) (s : State) : (setCtx f s).core.ls = s.core.ls := rfl
@[simp] theorem setCtx_core_cur (f : Ctx → Ctx) (s : State) : (setCtx f s).core.cur = s.core.cur := rfl
@[simp] theorem setCtx_core_tvec (f : Ctx → Ctx) (s : State) : (setCtx f s).core.tvec = s.core.tvec := rfl
@[simp] theorem setCtx_core_twp (f : Ctx → Ctx) (s : State) : (setCtx f s).core.twp = s.core.twp := rfl
@[simp] theorem setCtx_core_sleep (f : Ctx → Ctx) (s : State) : (setCtx f s).core.sleep = s.core.sleep := rfl
@[simp] theorem setCtx_core_qstat (f : Ctx → Ctx) (s : State) : (setCtx f s).core.qstat = s.core.qstat := rfl
@[simp] theorem setCtx_core_fpst (f : Ctx → Ctx) (s : State) : (setCtx f s).core.fpst = s.core.fpst := rfl
@[simp] theorem setCtx_core_actCount (f : Ctx → Ctx) (s : State) : (setCtx f s).core.actCount = s.core.actCount := rfl
@[simp] theorem setCtx_core_lut (f : Ctx → Ctx) (s : State) : (setCtx f s).core.lut = s.core.lut := rfl
@[simp] theorem setCtx_core_snapsel (f : Ctx → Ctx) (s : State) : (setCtx f s).core.snapsel = s.core.snapsel := rfl
@[simp] theorem setCtx_core_wins (f : Ctx → Ctx) (s : State) : (setCtx f s).core.wins = s.core.wins := rfl
@[simp] theorem setCtx_core_chans (f : Ctx → Ctx) (s : State) : (setCtx f s).core.chans = s.core.chans := rfl
@[simp] theorem setCtx_core_mxu (f : Ctx → Ctx) (s : State) : (setCtx f s).core.mxu = s.core.mxu := rfl
@[simp] theorem setCtx_core_stoHeld (f : Ctx → Ctx) (s : State) : (setCtx f s).core.stoHeld = s.core.stoHeld := rfl
@[simp] theorem setCtx_core_pushRel (f : Ctx → Ctx) (s : State) : (setCtx f s).core.pushRel = s.core.pushRel := rfl
@[simp] theorem setCtx_core_memQ (f : Ctx → Ctx) (s : State) : (setCtx f s).core.memQ = s.core.memQ := rfl
@[simp] theorem setCtx_core_sent (f : Ctx → Ctx) (s : State) : (setCtx f s).core.sent = s.core.sent := rfl
@[simp] theorem setCtx_core_inPushes (f : Ctx → Ctx) (s : State) : (setCtx f s).core.inPushes = s.core.inPushes := rfl
@[simp] theorem setCtx_core_injections (f : Ctx → Ctx) (s : State) : (setCtx f s).core.injections = s.core.injections := rfl
@[simp] theorem setCtx_core_inbound (f : Ctx → Ctx) (s : State) : (setCtx f s).core.inbound = s.core.inbound := rfl
@[simp] theorem setCtx_core_spill (f : Ctx → Ctx) (s : State) : (setCtx f s).core.spill = s.core.spill := rfl
@[simp] theorem setCtx_core_ready (f : Ctx → Ctx) (s : State) : (setCtx f s).core.ready = s.core.ready := rfl
@[simp] theorem setCtx_core_items (f : Ctx → Ctx) (s : State) : (setCtx f s).core.items = s.core.items := rfl
@[simp] theorem setCtx_core_disp (f : Ctx → Ctx) (s : State) : (setCtx f s).core.disp = s.core.disp := rfl
@[simp] theorem setCtx_core_fwd (f : Ctx → Ctx) (s : State) : (setCtx f s).core.fwd = s.core.fwd := rfl
@[simp] theorem setCtx_core_act (f : Ctx → Ctx) (s : State) : (setCtx f s).core.act = s.core.act := rfl
@[simp] theorem setCtx_core_gang (f : Ctx → Ctx) (s : State) : (setCtx f s).core.gang = s.core.gang := rfl
@[simp] theorem setCtx_core_slots (f : Ctx → Ctx) (s : State) : (setCtx f s).core.slots = s.core.slots := rfl
@[simp] theorem setCtx_core_insts (f : Ctx → Ctx) (s : State) : (setCtx f s).core.insts = s.core.insts := rfl
@[simp] theorem setCtx_core_resident (f : Ctx → Ctx) (s : State) : (setCtx f s).core.resident = s.core.resident := rfl
@[simp] theorem setCtx_core_lastAsid (f : Ctx → Ctx) (s : State) : (setCtx f s).core.lastAsid = s.core.lastAsid := rfl
@[simp] theorem setCtx_core_icache (f : Ctx → Ctx) (s : State) : (setCtx f s).core.icache = s.core.icache := rfl
@[simp] theorem setCtx_core_halted (f : Ctx → Ctx) (s : State) : (setCtx f s).core.halted = s.core.halted := rfl
@[simp] theorem setCtx_core_breakCapture (f : Ctx → Ctx) (s : State) : (setCtx f s).core.breakCapture = s.core.breakCapture := rfl
@[simp] theorem setCtx_core_stepCtx (f : Ctx → Ctx) (s : State) : (setCtx f s).core.stepCtx = s.core.stepCtx := rfl
@[simp] theorem setCtx_core_suspects (f : Ctx → Ctx) (s : State) : (setCtx f s).core.suspects = s.core.suspects := rfl
@[simp] theorem setCtx_core_dead (f : Ctx → Ctx) (s : State) : (setCtx f s).core.dead = s.core.dead := rfl
@[simp] theorem setCtx_core_poison (f : Ctx → Ctx) (s : State) : (setCtx f s).core.poison = s.core.poison := rfl
@[simp] theorem block_others (w : Wait) (s : State) : (block w s).others = s.others := rfl
@[simp] theorem block_pkg (w : Wait) (s : State) : (block w s).pkg = s.pkg := rfl
@[simp] theorem block_agenda (w : Wait) (s : State) : (block w s).agenda = s.agenda := rfl
@[simp] theorem block_turns (w : Wait) (s : State) : (block w s).turns = s.turns := rfl
@[simp] theorem block_freeCtr (w : Wait) (s : State) : (block w s).freeCtr = s.freeCtr := rfl
@[simp] theorem block_core_id (w : Wait) (s : State) : (block w s).core.id = s.core.id := rfl
@[simp] theorem block_core_ls (w : Wait) (s : State) : (block w s).core.ls = s.core.ls := rfl
@[simp] theorem block_core_cur (w : Wait) (s : State) : (block w s).core.cur = s.core.cur := rfl
@[simp] theorem block_core_tvec (w : Wait) (s : State) : (block w s).core.tvec = s.core.tvec := rfl
@[simp] theorem block_core_twp (w : Wait) (s : State) : (block w s).core.twp = s.core.twp := rfl
@[simp] theorem block_core_sleep (w : Wait) (s : State) : (block w s).core.sleep = s.core.sleep := rfl
@[simp] theorem block_core_qstat (w : Wait) (s : State) : (block w s).core.qstat = s.core.qstat := rfl
@[simp] theorem block_core_fpst (w : Wait) (s : State) : (block w s).core.fpst = s.core.fpst := rfl
@[simp] theorem block_core_actCount (w : Wait) (s : State) : (block w s).core.actCount = s.core.actCount := rfl
@[simp] theorem block_core_lut (w : Wait) (s : State) : (block w s).core.lut = s.core.lut := rfl
@[simp] theorem block_core_snapsel (w : Wait) (s : State) : (block w s).core.snapsel = s.core.snapsel := rfl
@[simp] theorem block_core_wins (w : Wait) (s : State) : (block w s).core.wins = s.core.wins := rfl
@[simp] theorem block_core_chans (w : Wait) (s : State) : (block w s).core.chans = s.core.chans := rfl
@[simp] theorem block_core_mxu (w : Wait) (s : State) : (block w s).core.mxu = s.core.mxu := rfl
@[simp] theorem block_core_stoHeld (w : Wait) (s : State) : (block w s).core.stoHeld = s.core.stoHeld := rfl
@[simp] theorem block_core_pushRel (w : Wait) (s : State) : (block w s).core.pushRel = s.core.pushRel := rfl
@[simp] theorem block_core_memQ (w : Wait) (s : State) : (block w s).core.memQ = s.core.memQ := rfl
@[simp] theorem block_core_sent (w : Wait) (s : State) : (block w s).core.sent = s.core.sent := rfl
@[simp] theorem block_core_inPushes (w : Wait) (s : State) : (block w s).core.inPushes = s.core.inPushes := rfl
@[simp] theorem block_core_injections (w : Wait) (s : State) : (block w s).core.injections = s.core.injections := rfl
@[simp] theorem block_core_inbound (w : Wait) (s : State) : (block w s).core.inbound = s.core.inbound := rfl
@[simp] theorem block_core_spill (w : Wait) (s : State) : (block w s).core.spill = s.core.spill := rfl
@[simp] theorem block_core_ready (w : Wait) (s : State) : (block w s).core.ready = s.core.ready := rfl
@[simp] theorem block_core_items (w : Wait) (s : State) : (block w s).core.items = s.core.items := rfl
@[simp] theorem block_core_disp (w : Wait) (s : State) : (block w s).core.disp = s.core.disp := rfl
@[simp] theorem block_core_fwd (w : Wait) (s : State) : (block w s).core.fwd = s.core.fwd := rfl
@[simp] theorem block_core_act (w : Wait) (s : State) : (block w s).core.act = s.core.act := rfl
@[simp] theorem block_core_gang (w : Wait) (s : State) : (block w s).core.gang = s.core.gang := rfl
@[simp] theorem block_core_slots (w : Wait) (s : State) : (block w s).core.slots = s.core.slots := rfl
@[simp] theorem block_core_insts (w : Wait) (s : State) : (block w s).core.insts = s.core.insts := rfl
@[simp] theorem block_core_resident (w : Wait) (s : State) : (block w s).core.resident = s.core.resident := rfl
@[simp] theorem block_core_lastAsid (w : Wait) (s : State) : (block w s).core.lastAsid = s.core.lastAsid := rfl
@[simp] theorem block_core_icache (w : Wait) (s : State) : (block w s).core.icache = s.core.icache := rfl
@[simp] theorem block_core_halted (w : Wait) (s : State) : (block w s).core.halted = s.core.halted := rfl
@[simp] theorem block_core_breakCapture (w : Wait) (s : State) : (block w s).core.breakCapture = s.core.breakCapture := rfl
@[simp] theorem block_core_stepCtx (w : Wait) (s : State) : (block w s).core.stepCtx = s.core.stepCtx := rfl
@[simp] theorem block_core_suspects (w : Wait) (s : State) : (block w s).core.suspects = s.core.suspects := rfl
@[simp] theorem block_core_dead (w : Wait) (s : State) : (block w s).core.dead = s.core.dead := rfl
@[simp] theorem block_core_poison (w : Wait) (s : State) : (block w s).core.poison = s.core.poison := rfl
@[simp] theorem setStage_others (n : Nat) (s : State) : (setStage n s).others = s.others := rfl
@[simp] theorem setStage_pkg (n : Nat) (s : State) : (setStage n s).pkg = s.pkg := rfl
@[simp] theorem setStage_agenda (n : Nat) (s : State) : (setStage n s).agenda = s.agenda := rfl
@[simp] theorem setStage_turns (n : Nat) (s : State) : (setStage n s).turns = s.turns := rfl
@[simp] theorem setStage_freeCtr (n : Nat) (s : State) : (setStage n s).freeCtr = s.freeCtr := rfl
@[simp] theorem setStage_core_id (n : Nat) (s : State) : (setStage n s).core.id = s.core.id := rfl
@[simp] theorem setStage_core_ls (n : Nat) (s : State) : (setStage n s).core.ls = s.core.ls := rfl
@[simp] theorem setStage_core_cur (n : Nat) (s : State) : (setStage n s).core.cur = s.core.cur := rfl
@[simp] theorem setStage_core_tvec (n : Nat) (s : State) : (setStage n s).core.tvec = s.core.tvec := rfl
@[simp] theorem setStage_core_twp (n : Nat) (s : State) : (setStage n s).core.twp = s.core.twp := rfl
@[simp] theorem setStage_core_sleep (n : Nat) (s : State) : (setStage n s).core.sleep = s.core.sleep := rfl
@[simp] theorem setStage_core_qstat (n : Nat) (s : State) : (setStage n s).core.qstat = s.core.qstat := rfl
@[simp] theorem setStage_core_fpst (n : Nat) (s : State) : (setStage n s).core.fpst = s.core.fpst := rfl
@[simp] theorem setStage_core_actCount (n : Nat) (s : State) : (setStage n s).core.actCount = s.core.actCount := rfl
@[simp] theorem setStage_core_lut (n : Nat) (s : State) : (setStage n s).core.lut = s.core.lut := rfl
@[simp] theorem setStage_core_snapsel (n : Nat) (s : State) : (setStage n s).core.snapsel = s.core.snapsel := rfl
@[simp] theorem setStage_core_wins (n : Nat) (s : State) : (setStage n s).core.wins = s.core.wins := rfl
@[simp] theorem setStage_core_chans (n : Nat) (s : State) : (setStage n s).core.chans = s.core.chans := rfl
@[simp] theorem setStage_core_mxu (n : Nat) (s : State) : (setStage n s).core.mxu = s.core.mxu := rfl
@[simp] theorem setStage_core_stoHeld (n : Nat) (s : State) : (setStage n s).core.stoHeld = s.core.stoHeld := rfl
@[simp] theorem setStage_core_pushRel (n : Nat) (s : State) : (setStage n s).core.pushRel = s.core.pushRel := rfl
@[simp] theorem setStage_core_memQ (n : Nat) (s : State) : (setStage n s).core.memQ = s.core.memQ := rfl
@[simp] theorem setStage_core_sent (n : Nat) (s : State) : (setStage n s).core.sent = s.core.sent := rfl
@[simp] theorem setStage_core_inPushes (n : Nat) (s : State) : (setStage n s).core.inPushes = s.core.inPushes := rfl
@[simp] theorem setStage_core_injections (n : Nat) (s : State) : (setStage n s).core.injections = s.core.injections := rfl
@[simp] theorem setStage_core_inbound (n : Nat) (s : State) : (setStage n s).core.inbound = s.core.inbound := rfl
@[simp] theorem setStage_core_spill (n : Nat) (s : State) : (setStage n s).core.spill = s.core.spill := rfl
@[simp] theorem setStage_core_ready (n : Nat) (s : State) : (setStage n s).core.ready = s.core.ready := rfl
@[simp] theorem setStage_core_items (n : Nat) (s : State) : (setStage n s).core.items = s.core.items := rfl
@[simp] theorem setStage_core_disp (n : Nat) (s : State) : (setStage n s).core.disp = s.core.disp := rfl
@[simp] theorem setStage_core_fwd (n : Nat) (s : State) : (setStage n s).core.fwd = s.core.fwd := rfl
@[simp] theorem setStage_core_act (n : Nat) (s : State) : (setStage n s).core.act = s.core.act := rfl
@[simp] theorem setStage_core_gang (n : Nat) (s : State) : (setStage n s).core.gang = s.core.gang := rfl
@[simp] theorem setStage_core_slots (n : Nat) (s : State) : (setStage n s).core.slots = s.core.slots := rfl
@[simp] theorem setStage_core_insts (n : Nat) (s : State) : (setStage n s).core.insts = s.core.insts := rfl
@[simp] theorem setStage_core_resident (n : Nat) (s : State) : (setStage n s).core.resident = s.core.resident := rfl
@[simp] theorem setStage_core_lastAsid (n : Nat) (s : State) : (setStage n s).core.lastAsid = s.core.lastAsid := rfl
@[simp] theorem setStage_core_icache (n : Nat) (s : State) : (setStage n s).core.icache = s.core.icache := rfl
@[simp] theorem setStage_core_halted (n : Nat) (s : State) : (setStage n s).core.halted = s.core.halted := rfl
@[simp] theorem setStage_core_breakCapture (n : Nat) (s : State) : (setStage n s).core.breakCapture = s.core.breakCapture := rfl
@[simp] theorem setStage_core_stepCtx (n : Nat) (s : State) : (setStage n s).core.stepCtx = s.core.stepCtx := rfl
@[simp] theorem setStage_core_suspects (n : Nat) (s : State) : (setStage n s).core.suspects = s.core.suspects := rfl
@[simp] theorem setStage_core_dead (n : Nat) (s : State) : (setStage n s).core.dead = s.core.dead := rfl
@[simp] theorem setStage_core_poison (n : Nat) (s : State) : (setStage n s).core.poison = s.core.poison := rfl
@[simp] theorem goTo_others (a : Nat) (s : State) : (goTo a s).others = s.others := rfl
@[simp] theorem goTo_pkg (a : Nat) (s : State) : (goTo a s).pkg = s.pkg := rfl
@[simp] theorem goTo_agenda (a : Nat) (s : State) : (goTo a s).agenda = s.agenda := rfl
@[simp] theorem goTo_turns (a : Nat) (s : State) : (goTo a s).turns = s.turns := rfl
@[simp] theorem goTo_freeCtr (a : Nat) (s : State) : (goTo a s).freeCtr = s.freeCtr := rfl
@[simp] theorem goTo_core_id (a : Nat) (s : State) : (goTo a s).core.id = s.core.id := rfl
@[simp] theorem goTo_core_ls (a : Nat) (s : State) : (goTo a s).core.ls = s.core.ls := rfl
@[simp] theorem goTo_core_cur (a : Nat) (s : State) : (goTo a s).core.cur = s.core.cur := rfl
@[simp] theorem goTo_core_tvec (a : Nat) (s : State) : (goTo a s).core.tvec = s.core.tvec := rfl
@[simp] theorem goTo_core_twp (a : Nat) (s : State) : (goTo a s).core.twp = s.core.twp := rfl
@[simp] theorem goTo_core_sleep (a : Nat) (s : State) : (goTo a s).core.sleep = s.core.sleep := rfl
@[simp] theorem goTo_core_qstat (a : Nat) (s : State) : (goTo a s).core.qstat = s.core.qstat := rfl
@[simp] theorem goTo_core_fpst (a : Nat) (s : State) : (goTo a s).core.fpst = s.core.fpst := rfl
@[simp] theorem goTo_core_actCount (a : Nat) (s : State) : (goTo a s).core.actCount = s.core.actCount := rfl
@[simp] theorem goTo_core_lut (a : Nat) (s : State) : (goTo a s).core.lut = s.core.lut := rfl
@[simp] theorem goTo_core_snapsel (a : Nat) (s : State) : (goTo a s).core.snapsel = s.core.snapsel := rfl
@[simp] theorem goTo_core_wins (a : Nat) (s : State) : (goTo a s).core.wins = s.core.wins := rfl
@[simp] theorem goTo_core_chans (a : Nat) (s : State) : (goTo a s).core.chans = s.core.chans := rfl
@[simp] theorem goTo_core_mxu (a : Nat) (s : State) : (goTo a s).core.mxu = s.core.mxu := rfl
@[simp] theorem goTo_core_stoHeld (a : Nat) (s : State) : (goTo a s).core.stoHeld = s.core.stoHeld := rfl
@[simp] theorem goTo_core_pushRel (a : Nat) (s : State) : (goTo a s).core.pushRel = s.core.pushRel := rfl
@[simp] theorem goTo_core_memQ (a : Nat) (s : State) : (goTo a s).core.memQ = s.core.memQ := rfl
@[simp] theorem goTo_core_sent (a : Nat) (s : State) : (goTo a s).core.sent = s.core.sent := rfl
@[simp] theorem goTo_core_inPushes (a : Nat) (s : State) : (goTo a s).core.inPushes = s.core.inPushes := rfl
@[simp] theorem goTo_core_injections (a : Nat) (s : State) : (goTo a s).core.injections = s.core.injections := rfl
@[simp] theorem goTo_core_inbound (a : Nat) (s : State) : (goTo a s).core.inbound = s.core.inbound := rfl
@[simp] theorem goTo_core_spill (a : Nat) (s : State) : (goTo a s).core.spill = s.core.spill := rfl
@[simp] theorem goTo_core_ready (a : Nat) (s : State) : (goTo a s).core.ready = s.core.ready := rfl
@[simp] theorem goTo_core_items (a : Nat) (s : State) : (goTo a s).core.items = s.core.items := rfl
@[simp] theorem goTo_core_disp (a : Nat) (s : State) : (goTo a s).core.disp = s.core.disp := rfl
@[simp] theorem goTo_core_fwd (a : Nat) (s : State) : (goTo a s).core.fwd = s.core.fwd := rfl
@[simp] theorem goTo_core_act (a : Nat) (s : State) : (goTo a s).core.act = s.core.act := rfl
@[simp] theorem goTo_core_gang (a : Nat) (s : State) : (goTo a s).core.gang = s.core.gang := rfl
@[simp] theorem goTo_core_slots (a : Nat) (s : State) : (goTo a s).core.slots = s.core.slots := rfl
@[simp] theorem goTo_core_insts (a : Nat) (s : State) : (goTo a s).core.insts = s.core.insts := rfl
@[simp] theorem goTo_core_resident (a : Nat) (s : State) : (goTo a s).core.resident = s.core.resident := rfl
@[simp] theorem goTo_core_lastAsid (a : Nat) (s : State) : (goTo a s).core.lastAsid = s.core.lastAsid := rfl
@[simp] theorem goTo_core_icache (a : Nat) (s : State) : (goTo a s).core.icache = s.core.icache := rfl
@[simp] theorem goTo_core_halted (a : Nat) (s : State) : (goTo a s).core.halted = s.core.halted := rfl
@[simp] theorem goTo_core_breakCapture (a : Nat) (s : State) : (goTo a s).core.breakCapture = s.core.breakCapture := rfl
@[simp] theorem goTo_core_stepCtx (a : Nat) (s : State) : (goTo a s).core.stepCtx = s.core.stepCtx := rfl
@[simp] theorem goTo_core_suspects (a : Nat) (s : State) : (goTo a s).core.suspects = s.core.suspects := rfl
@[simp] theorem goTo_core_dead (a : Nat) (s : State) : (goTo a s).core.dead = s.core.dead := rfl
@[simp] theorem goTo_core_poison (a : Nat) (s : State) : (goTo a s).core.poison = s.core.poison := rfl
@[simp] theorem setFlags_others (f : BitVec 5) (s : State) : (setFlags f s).others = s.others := rfl
@[simp] theorem setFlags_pkg (f : BitVec 5) (s : State) : (setFlags f s).pkg = s.pkg := rfl
@[simp] theorem setFlags_agenda (f : BitVec 5) (s : State) : (setFlags f s).agenda = s.agenda := rfl
@[simp] theorem setFlags_turns (f : BitVec 5) (s : State) : (setFlags f s).turns = s.turns := rfl
@[simp] theorem setFlags_freeCtr (f : BitVec 5) (s : State) : (setFlags f s).freeCtr = s.freeCtr := rfl
@[simp] theorem setFlags_core_id (f : BitVec 5) (s : State) : (setFlags f s).core.id = s.core.id := rfl
@[simp] theorem setFlags_core_ls (f : BitVec 5) (s : State) : (setFlags f s).core.ls = s.core.ls := rfl
@[simp] theorem setFlags_core_cur (f : BitVec 5) (s : State) : (setFlags f s).core.cur = s.core.cur := rfl
@[simp] theorem setFlags_core_tvec (f : BitVec 5) (s : State) : (setFlags f s).core.tvec = s.core.tvec := rfl
@[simp] theorem setFlags_core_twp (f : BitVec 5) (s : State) : (setFlags f s).core.twp = s.core.twp := rfl
@[simp] theorem setFlags_core_sleep (f : BitVec 5) (s : State) : (setFlags f s).core.sleep = s.core.sleep := rfl
@[simp] theorem setFlags_core_qstat (f : BitVec 5) (s : State) : (setFlags f s).core.qstat = s.core.qstat := rfl
@[simp] theorem setFlags_core_fpst (f : BitVec 5) (s : State) : (setFlags f s).core.fpst = s.core.fpst := rfl
@[simp] theorem setFlags_core_actCount (f : BitVec 5) (s : State) : (setFlags f s).core.actCount = s.core.actCount := rfl
@[simp] theorem setFlags_core_lut (f : BitVec 5) (s : State) : (setFlags f s).core.lut = s.core.lut := rfl
@[simp] theorem setFlags_core_snapsel (f : BitVec 5) (s : State) : (setFlags f s).core.snapsel = s.core.snapsel := rfl
@[simp] theorem setFlags_core_wins (f : BitVec 5) (s : State) : (setFlags f s).core.wins = s.core.wins := rfl
@[simp] theorem setFlags_core_chans (f : BitVec 5) (s : State) : (setFlags f s).core.chans = s.core.chans := rfl
@[simp] theorem setFlags_core_mxu (f : BitVec 5) (s : State) : (setFlags f s).core.mxu = s.core.mxu := rfl
@[simp] theorem setFlags_core_stoHeld (f : BitVec 5) (s : State) : (setFlags f s).core.stoHeld = s.core.stoHeld := rfl
@[simp] theorem setFlags_core_pushRel (f : BitVec 5) (s : State) : (setFlags f s).core.pushRel = s.core.pushRel := rfl
@[simp] theorem setFlags_core_memQ (f : BitVec 5) (s : State) : (setFlags f s).core.memQ = s.core.memQ := rfl
@[simp] theorem setFlags_core_sent (f : BitVec 5) (s : State) : (setFlags f s).core.sent = s.core.sent := rfl
@[simp] theorem setFlags_core_inPushes (f : BitVec 5) (s : State) : (setFlags f s).core.inPushes = s.core.inPushes := rfl
@[simp] theorem setFlags_core_injections (f : BitVec 5) (s : State) : (setFlags f s).core.injections = s.core.injections := rfl
@[simp] theorem setFlags_core_inbound (f : BitVec 5) (s : State) : (setFlags f s).core.inbound = s.core.inbound := rfl
@[simp] theorem setFlags_core_spill (f : BitVec 5) (s : State) : (setFlags f s).core.spill = s.core.spill := rfl
@[simp] theorem setFlags_core_ready (f : BitVec 5) (s : State) : (setFlags f s).core.ready = s.core.ready := rfl
@[simp] theorem setFlags_core_items (f : BitVec 5) (s : State) : (setFlags f s).core.items = s.core.items := rfl
@[simp] theorem setFlags_core_disp (f : BitVec 5) (s : State) : (setFlags f s).core.disp = s.core.disp := rfl
@[simp] theorem setFlags_core_fwd (f : BitVec 5) (s : State) : (setFlags f s).core.fwd = s.core.fwd := rfl
@[simp] theorem setFlags_core_act (f : BitVec 5) (s : State) : (setFlags f s).core.act = s.core.act := rfl
@[simp] theorem setFlags_core_gang (f : BitVec 5) (s : State) : (setFlags f s).core.gang = s.core.gang := rfl
@[simp] theorem setFlags_core_slots (f : BitVec 5) (s : State) : (setFlags f s).core.slots = s.core.slots := rfl
@[simp] theorem setFlags_core_insts (f : BitVec 5) (s : State) : (setFlags f s).core.insts = s.core.insts := rfl
@[simp] theorem setFlags_core_resident (f : BitVec 5) (s : State) : (setFlags f s).core.resident = s.core.resident := rfl
@[simp] theorem setFlags_core_lastAsid (f : BitVec 5) (s : State) : (setFlags f s).core.lastAsid = s.core.lastAsid := rfl
@[simp] theorem setFlags_core_icache (f : BitVec 5) (s : State) : (setFlags f s).core.icache = s.core.icache := rfl
@[simp] theorem setFlags_core_halted (f : BitVec 5) (s : State) : (setFlags f s).core.halted = s.core.halted := rfl
@[simp] theorem setFlags_core_breakCapture (f : BitVec 5) (s : State) : (setFlags f s).core.breakCapture = s.core.breakCapture := rfl
@[simp] theorem setFlags_core_stepCtx (f : BitVec 5) (s : State) : (setFlags f s).core.stepCtx = s.core.stepCtx := rfl
@[simp] theorem setFlags_core_suspects (f : BitVec 5) (s : State) : (setFlags f s).core.suspects = s.core.suspects := rfl
@[simp] theorem setFlags_core_dead (f : BitVec 5) (s : State) : (setFlags f s).core.dead = s.core.dead := rfl
@[simp] theorem setFlags_core_poison (f : BitVec 5) (s : State) : (setFlags f s).core.poison = s.core.poison := rfl
@[simp] theorem setW_core_ls (n x : Nat) (s : State) : (setW n x s).core.ls = writeLE s.core.ls (wAddr s n) 8 x := rfl
@[simp] theorem setW_others (n x : Nat) (s : State) : (setW n x s).others = s.others := rfl
@[simp] theorem setW_pkg (n x : Nat) (s : State) : (setW n x s).pkg = s.pkg := rfl
@[simp] theorem setW_agenda (n x : Nat) (s : State) : (setW n x s).agenda = s.agenda := rfl
@[simp] theorem setW_turns (n x : Nat) (s : State) : (setW n x s).turns = s.turns := rfl
@[simp] theorem setW_freeCtr (n x : Nat) (s : State) : (setW n x s).freeCtr = s.freeCtr := rfl
@[simp] theorem setW_core_id (n x : Nat) (s : State) : (setW n x s).core.id = s.core.id := rfl
@[simp] theorem setW_core_ctxs (n x : Nat) (s : State) : (setW n x s).core.ctxs = s.core.ctxs := rfl
@[simp] theorem setW_core_cur (n x : Nat) (s : State) : (setW n x s).core.cur = s.core.cur := rfl
@[simp] theorem setW_core_tvec (n x : Nat) (s : State) : (setW n x s).core.tvec = s.core.tvec := rfl
@[simp] theorem setW_core_twp (n x : Nat) (s : State) : (setW n x s).core.twp = s.core.twp := rfl
@[simp] theorem setW_core_sleep (n x : Nat) (s : State) : (setW n x s).core.sleep = s.core.sleep := rfl
@[simp] theorem setW_core_qstat (n x : Nat) (s : State) : (setW n x s).core.qstat = s.core.qstat := rfl
@[simp] theorem setW_core_fpst (n x : Nat) (s : State) : (setW n x s).core.fpst = s.core.fpst := rfl
@[simp] theorem setW_core_actCount (n x : Nat) (s : State) : (setW n x s).core.actCount = s.core.actCount := rfl
@[simp] theorem setW_core_lut (n x : Nat) (s : State) : (setW n x s).core.lut = s.core.lut := rfl
@[simp] theorem setW_core_snapsel (n x : Nat) (s : State) : (setW n x s).core.snapsel = s.core.snapsel := rfl
@[simp] theorem setW_core_chans (n x : Nat) (s : State) : (setW n x s).core.chans = s.core.chans := rfl
@[simp] theorem setW_core_mxu (n x : Nat) (s : State) : (setW n x s).core.mxu = s.core.mxu := rfl
@[simp] theorem setW_core_stoHeld (n x : Nat) (s : State) : (setW n x s).core.stoHeld = s.core.stoHeld := rfl
@[simp] theorem setW_core_pushRel (n x : Nat) (s : State) : (setW n x s).core.pushRel = s.core.pushRel := rfl
@[simp] theorem setW_core_memQ (n x : Nat) (s : State) : (setW n x s).core.memQ = s.core.memQ := rfl
@[simp] theorem setW_core_sent (n x : Nat) (s : State) : (setW n x s).core.sent = s.core.sent := rfl
@[simp] theorem setW_core_inPushes (n x : Nat) (s : State) : (setW n x s).core.inPushes = s.core.inPushes := rfl
@[simp] theorem setW_core_injections (n x : Nat) (s : State) : (setW n x s).core.injections = s.core.injections := rfl
@[simp] theorem setW_core_inbound (n x : Nat) (s : State) : (setW n x s).core.inbound = s.core.inbound := rfl
@[simp] theorem setW_core_spill (n x : Nat) (s : State) : (setW n x s).core.spill = s.core.spill := rfl
@[simp] theorem setW_core_ready (n x : Nat) (s : State) : (setW n x s).core.ready = s.core.ready := rfl
@[simp] theorem setW_core_items (n x : Nat) (s : State) : (setW n x s).core.items = s.core.items := rfl
@[simp] theorem setW_core_disp (n x : Nat) (s : State) : (setW n x s).core.disp = s.core.disp := rfl
@[simp] theorem setW_core_fwd (n x : Nat) (s : State) : (setW n x s).core.fwd = s.core.fwd := rfl
@[simp] theorem setW_core_act (n x : Nat) (s : State) : (setW n x s).core.act = s.core.act := rfl
@[simp] theorem setW_core_gang (n x : Nat) (s : State) : (setW n x s).core.gang = s.core.gang := rfl
@[simp] theorem setW_core_slots (n x : Nat) (s : State) : (setW n x s).core.slots = s.core.slots := rfl
@[simp] theorem setW_core_insts (n x : Nat) (s : State) : (setW n x s).core.insts = s.core.insts := rfl
@[simp] theorem setW_core_resident (n x : Nat) (s : State) : (setW n x s).core.resident = s.core.resident := rfl
@[simp] theorem setW_core_lastAsid (n x : Nat) (s : State) : (setW n x s).core.lastAsid = s.core.lastAsid := rfl
@[simp] theorem setW_core_icache (n x : Nat) (s : State) : (setW n x s).core.icache = s.core.icache := rfl
@[simp] theorem setW_core_halted (n x : Nat) (s : State) : (setW n x s).core.halted = s.core.halted := rfl
@[simp] theorem setW_core_breakCapture (n x : Nat) (s : State) : (setW n x s).core.breakCapture = s.core.breakCapture := rfl
@[simp] theorem setW_core_stepCtx (n x : Nat) (s : State) : (setW n x s).core.stepCtx = s.core.stepCtx := rfl
@[simp] theorem setW_core_suspects (n x : Nat) (s : State) : (setW n x s).core.suspects = s.core.suspects := rfl
@[simp] theorem setW_core_dead (n x : Nat) (s : State) : (setW n x s).core.dead = s.core.dead := rfl
@[simp] theorem setV_others (n : Nat) (bs : List Byte) (s : State) : (setV n bs s).others = s.others := rfl
@[simp] theorem setV_pkg (n : Nat) (bs : List Byte) (s : State) : (setV n bs s).pkg = s.pkg := rfl
@[simp] theorem setV_agenda (n : Nat) (bs : List Byte) (s : State) : (setV n bs s).agenda = s.agenda := rfl
@[simp] theorem setV_turns (n : Nat) (bs : List Byte) (s : State) : (setV n bs s).turns = s.turns := rfl
@[simp] theorem setV_freeCtr (n : Nat) (bs : List Byte) (s : State) : (setV n bs s).freeCtr = s.freeCtr := rfl
@[simp] theorem setV_core_id (n : Nat) (bs : List Byte) (s : State) : (setV n bs s).core.id = s.core.id := rfl
@[simp] theorem setV_core_ctxs (n : Nat) (bs : List Byte) (s : State) : (setV n bs s).core.ctxs = s.core.ctxs := rfl
@[simp] theorem setV_core_cur (n : Nat) (bs : List Byte) (s : State) : (setV n bs s).core.cur = s.core.cur := rfl
@[simp] theorem setV_core_tvec (n : Nat) (bs : List Byte) (s : State) : (setV n bs s).core.tvec = s.core.tvec := rfl
@[simp] theorem setV_core_twp (n : Nat) (bs : List Byte) (s : State) : (setV n bs s).core.twp = s.core.twp := rfl
@[simp] theorem setV_core_sleep (n : Nat) (bs : List Byte) (s : State) : (setV n bs s).core.sleep = s.core.sleep := rfl
@[simp] theorem setV_core_qstat (n : Nat) (bs : List Byte) (s : State) : (setV n bs s).core.qstat = s.core.qstat := rfl
@[simp] theorem setV_core_fpst (n : Nat) (bs : List Byte) (s : State) : (setV n bs s).core.fpst = s.core.fpst := rfl
@[simp] theorem setV_core_actCount (n : Nat) (bs : List Byte) (s : State) : (setV n bs s).core.actCount = s.core.actCount := rfl
@[simp] theorem setV_core_lut (n : Nat) (bs : List Byte) (s : State) : (setV n bs s).core.lut = s.core.lut := rfl
@[simp] theorem setV_core_snapsel (n : Nat) (bs : List Byte) (s : State) : (setV n bs s).core.snapsel = s.core.snapsel := rfl
@[simp] theorem setV_core_chans (n : Nat) (bs : List Byte) (s : State) : (setV n bs s).core.chans = s.core.chans := rfl
@[simp] theorem setV_core_mxu (n : Nat) (bs : List Byte) (s : State) : (setV n bs s).core.mxu = s.core.mxu := rfl
@[simp] theorem setV_core_stoHeld (n : Nat) (bs : List Byte) (s : State) : (setV n bs s).core.stoHeld = s.core.stoHeld := rfl
@[simp] theorem setV_core_pushRel (n : Nat) (bs : List Byte) (s : State) : (setV n bs s).core.pushRel = s.core.pushRel := rfl
@[simp] theorem setV_core_memQ (n : Nat) (bs : List Byte) (s : State) : (setV n bs s).core.memQ = s.core.memQ := rfl
@[simp] theorem setV_core_sent (n : Nat) (bs : List Byte) (s : State) : (setV n bs s).core.sent = s.core.sent := rfl
@[simp] theorem setV_core_inPushes (n : Nat) (bs : List Byte) (s : State) : (setV n bs s).core.inPushes = s.core.inPushes := rfl
@[simp] theorem setV_core_injections (n : Nat) (bs : List Byte) (s : State) : (setV n bs s).core.injections = s.core.injections := rfl
@[simp] theorem setV_core_inbound (n : Nat) (bs : List Byte) (s : State) : (setV n bs s).core.inbound = s.core.inbound := rfl
@[simp] theorem setV_core_spill (n : Nat) (bs : List Byte) (s : State) : (setV n bs s).core.spill = s.core.spill := rfl
@[simp] theorem setV_core_ready (n : Nat) (bs : List Byte) (s : State) : (setV n bs s).core.ready = s.core.ready := rfl
@[simp] theorem setV_core_items (n : Nat) (bs : List Byte) (s : State) : (setV n bs s).core.items = s.core.items := rfl
@[simp] theorem setV_core_disp (n : Nat) (bs : List Byte) (s : State) : (setV n bs s).core.disp = s.core.disp := rfl
@[simp] theorem setV_core_fwd (n : Nat) (bs : List Byte) (s : State) : (setV n bs s).core.fwd = s.core.fwd := rfl
@[simp] theorem setV_core_act (n : Nat) (bs : List Byte) (s : State) : (setV n bs s).core.act = s.core.act := rfl
@[simp] theorem setV_core_gang (n : Nat) (bs : List Byte) (s : State) : (setV n bs s).core.gang = s.core.gang := rfl
@[simp] theorem setV_core_slots (n : Nat) (bs : List Byte) (s : State) : (setV n bs s).core.slots = s.core.slots := rfl
@[simp] theorem setV_core_insts (n : Nat) (bs : List Byte) (s : State) : (setV n bs s).core.insts = s.core.insts := rfl
@[simp] theorem setV_core_resident (n : Nat) (bs : List Byte) (s : State) : (setV n bs s).core.resident = s.core.resident := rfl
@[simp] theorem setV_core_lastAsid (n : Nat) (bs : List Byte) (s : State) : (setV n bs s).core.lastAsid = s.core.lastAsid := rfl
@[simp] theorem setV_core_icache (n : Nat) (bs : List Byte) (s : State) : (setV n bs s).core.icache = s.core.icache := rfl
@[simp] theorem setV_core_halted (n : Nat) (bs : List Byte) (s : State) : (setV n bs s).core.halted = s.core.halted := rfl
@[simp] theorem setV_core_breakCapture (n : Nat) (bs : List Byte) (s : State) : (setV n bs s).core.breakCapture = s.core.breakCapture := rfl
@[simp] theorem setV_core_stepCtx (n : Nat) (bs : List Byte) (s : State) : (setV n bs s).core.stepCtx = s.core.stepCtx := rfl
@[simp] theorem setV_core_suspects (n : Nat) (bs : List Byte) (s : State) : (setV n bs s).core.suspects = s.core.suspects := rfl
@[simp] theorem setV_core_dead (n : Nat) (bs : List Byte) (s : State) : (setV n bs s).core.dead = s.core.dead := rfl
@[simp] theorem setV_core_ls (n : Nat) (bs : List Byte) (s : State) : (setV n bs s).core.ls = writeBytes s.core.ls (vAddr s n) bs := rfl
@[simp] theorem bump_core (s : State) : (bump s).core = s.core := rfl
@[simp] theorem bump_others (s : State) : (bump s).others = s.others := rfl
@[simp] theorem bump_pkg (s : State) : (bump s).pkg = s.pkg := rfl
@[simp] theorem bump_agenda (s : State) : (bump s).agenda = s.agenda := rfl
@[simp] theorem bump_turns (s : State) : (bump s).turns = s.turns := rfl
@[simp] theorem bump_freeCtr (s : State) : (bump s).freeCtr = s.freeCtr + 1 := rfl

/-! ## Contexts -/

theorem mapAt_length {α : Type} (f : α → α) : ∀ (n : Nat) (l : List α), (mapAt f n l).length = l.length
  | 0, [] => rfl
  | _ + 1, [] => rfl
  | 0, _ :: _ => rfl
  | n + 1, x :: xs => by simp [mapAt, mapAt_length f n xs]

theorem mapAt_getD {α : Type} (f : α → α) (d : α) : ∀ (n m : Nat) (l : List α), n < l.length →
    (mapAt f n l).getD m d = if m = n then f (l.getD n d) else l.getD m d
  | _, _, [], h => by simp at h
  | 0, 0, _ :: _, _ => rfl
  | 0, m + 1, _ :: _, _ => by simp [mapAt]
  | n + 1, 0, _ :: _, _ => by simp [mapAt]
  | n + 1, m + 1, x :: xs, h => by
    have := mapAt_getD f d n m xs (by simpa using h)
    simpa [mapAt] using this

/-- Changing context h changes that context only. -/
theorem ctxAt_setCtxAt {h : Nat} {s : State} (hl : h < s.core.ctxs.length) (f : Ctx → Ctx) (j : Nat) :
    ctxAt (setCtxAt h f s) j = if j = h then f (ctxAt s h) else ctxAt s j := mapAt_getD f {} h j s.core.ctxs hl

/-- Changing the issuing context. -/
theorem ctx_setCtx {s : State} (hl : s.core.cur < s.core.ctxs.length) (f : Ctx → Ctx) : ctx (setCtx f s) = f (ctx s) := by
  have := ctxAt_setCtxAt hl f s.core.cur
  simpa [ctx, setCtx] using this

theorem ctxs_length_setCtxAt (h : Nat) (f : Ctx → Ctx) (s : State) : (setCtxAt h f s).core.ctxs.length = s.core.ctxs.length :=
  mapAt_length f h s.core.ctxs

theorem ctx_updPkg (f : Package → Package) (s : State) : ctx (updPkg f s) = ctx s := rfl
theorem ctx_setW (n x : Nat) (s : State) : ctx (setW n x s) = ctx s := rfl
theorem ctx_setV (n : Nat) (bs : List Byte) (s : State) : ctx (setV n bs s) = ctx s := rfl
theorem ctx_bump (s : State) : ctx (bump s) = ctx s := rfl

/-! ## A context that goes on -/

@[simp] theorem Ctx.wentTo_pc (a : Nat) (x : Ctx) : (x.wentTo a).pc = BitVec.ofNat 64 a := rfl
@[simp] theorem Ctx.wentTo_stage (a : Nat) (x : Ctx) : (x.wentTo a).stage = 0 := rfl
@[simp] theorem Ctx.wentTo_ops (a : Nat) (x : Ctx) : (x.wentTo a).ops = [] := rfl
@[simp] theorem Ctx.wentTo_wait (a : Nat) (x : Ctx) : (x.wentTo a).wait = .none := rfl
@[simp] theorem Ctx.wentTo_acquired (a : Nat) (x : Ctx) : (x.wentTo a).acquired = false := rfl
@[simp] theorem Ctx.wentTo_live (a : Nat) (x : Ctx) : (x.wentTo a).live = x.live := rfl
@[simp] theorem Ctx.wentTo_wp (a : Nat) (x : Ctx) : (x.wentTo a).wp = x.wp := rfl
@[simp] theorem Ctx.wentTo_flg (a : Nat) (x : Ctx) : (x.wentTo a).flg = x.flg := rfl
@[simp] theorem Ctx.wentTo_repst (a : Nat) (x : Ctx) : (x.wentTo a).repst = x.repst := rfl
@[simp] theorem Ctx.wentTo_modv (a : Nat) (x : Ctx) : (x.wentTo a).modv = x.modv := rfl
@[simp] theorem Ctx.wentTo_longs (a : Nat) (x : Ctx) : (x.wentTo a).longs = x.longs := rfl
@[simp] theorem Ctx.wentTo_inTrap (a : Nat) (x : Ctx) : (x.wentTo a).inTrap = x.inTrap := rfl
@[simp] theorem Ctx.wentTo_outer (a : Nat) (x : Ctx) : (x.wentTo a).outer = x.outer := rfl
@[simp] theorem Ctx.wentTo_heldTrap (a : Nat) (x : Ctx) : (x.wentTo a).heldTrap = x.heldTrap := rfl
@[simp] theorem Ctx.wentTo_priv (a : Nat) (x : Ctx) : (x.wentTo a).priv = x.priv := rfl
@[simp] theorem Ctx.wentTo_snap (a : Nat) (x : Ctx) : (x.wentTo a).snap = x.snap := rfl
@[simp] theorem Ctx.wentTo_snapLongs (a : Nat) (x : Ctx) : (x.wentTo a).snapLongs = x.snapLongs := rfl
@[simp] theorem Ctx.wentTo_cand (a : Nat) (x : Ctx) : (x.wentTo a).cand = x.cand := rfl
@[simp] theorem Ctx.wentTo_firstSeg (a : Nat) (x : Ctx) : (x.wentTo a).firstSeg = x.firstSeg := rfl
@[simp] theorem Ctx.wentTo_replays (a : Nat) (x : Ctx) : (x.wentTo a).replays = x.replays := rfl
@[simp] theorem Ctx.wentTo_journal (a : Nat) (x : Ctx) : (x.wentTo a).journal = x.journal := rfl
@[simp] theorem Ctx.wentTo_records (a : Nat) (x : Ctx) : (x.wentTo a).records = x.records := rfl
@[simp] theorem Ctx.wentTo_ueAt (a : Nat) (x : Ctx) : (x.wentTo a).ueAt = x.ueAt := rfl
@[simp] theorem Ctx.wentTo_fetched (a : Nat) (x : Ctx) : (x.wentTo a).fetched = x.fetched := rfl
@[simp] theorem Ctx.wentTo_leadLog (a : Nat) (x : Ctx) : (x.wentTo a).leadLog = x.leadLog := rfl
@[simp] theorem Ctx.wentTo_leadPos (a : Nat) (x : Ctx) : (x.wentTo a).leadPos = x.leadPos := rfl

end Sys2Proof.Machine
end

