-- ==== Sys2Proof/Laws/Ops.lean ====
section
/-! SUPPORT. What the shared operations do, each said once: the end of an instruction, a write of a register or of flags as the
effect of a whole instruction, checks, traps. -/

namespace Sys2Proof.Machine

/-! ## Checks -/

@[simp] theorem bind_ok {α β : Type} (x : α) (f : α → Res β) : ((Except.ok x : Res α) >>= f) = f x := rfl
@[simp] theorem bind_error {α β : Type} (e : Stop) (f : α → Res β) : ((Except.error e : Res α) >>= f) = .error e := rfl
@[simp] theorem need_true (code value : Nat) : need true code value = .ok () := rfl
@[simp] theorem need_false (code value : Nat) : need false code value = .error (.trap code value) := rfl
@[simp] theorem need8_true (i : Instr) : need8 true i = .ok () := rfl
@[simp] theorem need8_false (i : Instr) : need8 false i = .error (.trap cILL (illValue 8 i)) := rfl

theorem need_ok {ok : Bool} (h : ok = true) (code value : Nat) : need ok code value = .ok () := by simp [h]
theorem need8_ok {ok : Bool} (h : ok = true) (i : Instr) : need8 ok i = .ok () := by simp [h]

/-! ## The invariant -/

theorem State.wf_core {s : State} (h : s.wf = true) : Core.wf s.core = true := by
  simp only [State.wf, Bool.and_eq_true] at h
  exact h.1.1.2

theorem Core.wf_ls {c : Core} (h : Core.wf c = true) : Memory.wf c.ls = true := by
  simp only [Core.wf, Bool.and_eq_true] at h
  exact h.1.1

theorem Core.wf_cur {c : Core} (h : Core.wf c = true) : c.cur < c.ctxs.length := by
  simp only [Core.wf, Bool.and_eq_true, decide_eq_true_eq, beq_iff_eq] at h
  omega

theorem State.plain.ls {s : State} (h : s.plain) : Memory.wf s.core.ls = true := Core.wf_ls (State.wf_core h.1)
theorem State.plain.cur {s : State} (h : s.plain) : s.core.cur < s.core.ctxs.length := Core.wf_cur (State.wf_core h.1)

/-! ## Long results -/

theorem flushLongs_nil {s : State} (h : (ctx s).longs = []) : flushLongs s = s := by
  have h1 : (ctxAt s s.core.cur).longs = [] := h
  simp [flushLongs, flushLongsAt, h1]

theorem landDue_nil {s : State} {h : Nat} (h1 : (ctxAt s h).longs = []) : landDue h s = s := by simp [landDue, h1]

theorem longRoom_nil {s : State} (h : (ctx s).longs = []) : longRoom s = s := by simp [longRoom, h]

theorem lsView_nil {s : State} (h : (ctx s).longs = []) : lsView s = s.core.ls := by simp [lsView, h, seen]
theorem flgView_nil {s : State} (h : (ctx s).longs = []) : flgView s = (ctx s).flg := by simp [flgView, h, seen]

theorem tick_nil {s : State} (h : (ctx s).longs = []) : tick s = s := by simp [tick, h]

theorem counted_nil {s : State} (h : (ctx s).longs = []) : counted s = s := by simp [counted, tick_nil h]

/-! ## The end of an instruction -/

/-- An instruction whose checks pass and that is done, with no cause due. -/
theorem run_ok {s t : State} (h : asyncDue s = none) (hw : (ctx t).wait = .none) : run s (.ok t) = .next (counted t) := by
  simp [run, h, hw]

/-- An instruction that waits, with no cause due. -/
theorem run_wait {s : State} {w : Wait} (h : asyncDue s = none) : run s (.error (.wait w)) = .next (block w s) := by simp [run, h]

/-- A trap. -/
theorem run_trap (s : State) (code value : Nat) : run s (.error (.trap code value)) = .next (takeTrap code value s) := rfl

/-! ## An instruction that runs in parts -/

/-- Its first part reads the operands, which stay with it while it is not done. -/
theorem inParts_first {s : State} (h : stageOf s = 0) (ho : (ctx s).ops = []) {l : List Nat} (effect : List Nat → Res State) :
    inParts s (.ok l) effect = (effect l).map (fun t => if unfinished t then keepOps l t else t) := by
  cases h' : effect l <;> simp [inParts, h, ho, h', Except.map, bind, Except.bind]

/-- A check that fails at its issue is all that happens. -/
theorem inParts_error {s : State} (h : stageOf s = 0) (ho : (ctx s).ops = []) (e : Stop) (effect : List Nat → Res State) :
    inParts s (.error e) effect = .error e := by simp [inParts, h, ho]

/-- A later part, and the end of a wait that has kept them, uses the operands that the issue read. -/
theorem inParts_later {s : State} (h : stageOf s ≠ 0 ∨ (ctx s).ops ≠ []) (read : Res (List Nat)) (effect : List Nat → Res State) :
    inParts s read effect = effect (ctx s).ops := by
  rcases h with h | h <;> simp [inParts, h]

/-- Past its commit point an instruction goes on. -/
theorem withCommit_past {n : Nat} {s : State} (h : stageOf s ≠ n) (nxt cont : State → State) : withCommit n nxt s cont = cont s := by
  simp [withCommit, h]

/-- The commit point of a single activation whose held outputs can be read (R248). -/
theorem withCommit_single {n : Nat} {s : State} {nxt : State → State} (h : stageOf s = n) (hn : nxtStall nxt s = none)
    (hr : redundant s = false) (hb : badHeld s = false) (cont : State → State) :
    withCommit n nxt s cont = cont (commitSeg nxt s) := by simp [withCommit, h, hn, hr, hb]

/-- In PAIR and TRIAD modes it sends the vote (R311). -/
theorem withCommit_vote {n : Nat} {s : State} {nxt : State → State} (h : stageOf s = n) (hn : nxtStall nxt s = none)
    (hr : redundant s = true) (cont : State → State) :
    withCommit n nxt s cont = sendVote (if badHeld s then 4 else 0) nxt s := by simp [withCommit, h, hn, hr]

theorem runFlushed_plain {s : State} (h : s.plain) (r : State → Res State) : runFlushed s r = run s (r s) := by
  rw [runFlushed, flushLongs_nil h.2.2.2.1]
  split
  · rename_i code value e
    rw [tick_nil h.2.2.2.1, ite_self, e, run_trap]
  · rfl

/-- Outside a bellows body the next instruction follows. -/
theorem retire_plain {s : State} (h : repActive (ctx s).repst.toNat = false) (p : Pre) : retire p s = goTo (nextPc p s) s := by
  simp [retire, h]

/-- The effect of a whole instruction that writes W[n] (R17, R76). -/
theorem run_setW {s : State} (h : s.plain) (p : Pre) (n x : Nat) : ∃ t, run s (.ok (retire p (setW n x s))) = .next t ∧
    readLE t.core.ls (wAddr s n) 8 = x % 2 ^ 64 ∧ onlyBytes (wAddr s n) 8 s t ∧ standsAt (nextPc p s) s t := by
  obtain ⟨hw, ha, _, hl, hr⟩ := h
  have hc := Core.wf_cur (State.wf_core hw)
  have hm := Core.wf_ls (State.wf_core hw)
  have e1 : retire p (setW n x s) = goTo (nextPc p s) (setW n x s) := by
    rw [retire_plain (by rw [ctx_setW]; exact hr)]; rfl
  have e2 : ctx (goTo (nextPc p s) (setW n x s)) = (ctx s).wentTo (nextPc p s) := by
    rw [goTo, ctx_setCtx (by simpa using hc), ctx_setW]
  have e3 : counted (goTo (nextPc p s) (setW n x s)) = goTo (nextPc p s) (setW n x s) := counted_nil (by rw [e2]; exact hl)
  refine ⟨goTo (nextPc p s) (setW n x s), ?_, ?_, ⟨?_, ?_, ?_⟩, e2⟩
  · rw [run_ok ha (by rw [e1, e2]; rfl), e1, e3]
  · simp only [goTo_core_ls, setW_core_ls]
    rw [readLE_writeLE hm]; norm_num
  · show goTo (nextPc p s) (setW n x s) = _
    simp only [goTo, setCtx, setCtxAt, setW, updCore, lsPut, bytesLE_length]
  · intro a h1
    simp only [goTo_core_ls, setW_core_ls]
    exact memRead_writeBytes_outside hm (by rw [bytesLE_length]; exact h1)
  · intro k hk
    rw [goTo, setCtx, ctxAt_setCtxAt (by simpa using hc)]
    have : k ≠ (setW n x s).core.cur := by simpa using hk
    rw [if_neg this]
    rfl

/-- The effect of a whole instruction that changes its context only. -/
theorem run_setCtx {s : State} (h : s.plain) (p : Pre) (f : Ctx → Ctx) (hl : (f (ctx s)).longs = [])
    (hr : repActive (f (ctx s)).repst.toNat = false) : ∃ t, run s (.ok (retire p (setCtx f s))) = .next t ∧ onlyCtx s t ∧
    ctx t = (f (ctx s)).wentTo (nextPc p (setCtx f s)) := by
  obtain ⟨hw, ha, -⟩ := h
  have hc := Core.wf_cur (State.wf_core hw)
  have e0 : ctx (setCtx f s) = f (ctx s) := ctx_setCtx hc f
  have e1 : retire p (setCtx f s) = goTo (nextPc p (setCtx f s)) (setCtx f s) := retire_plain (by rw [e0]; exact hr) p
  have hc' : (setCtx f s).core.cur < (setCtx f s).core.ctxs.length := by
    rw [setCtx, ctxs_length_setCtxAt]; exact hc
  have e2 : ctx (goTo (nextPc p (setCtx f s)) (setCtx f s)) =
      (f (ctx s)).wentTo (nextPc p (setCtx f s)) := by
    rw [goTo, ctx_setCtx hc', e0]
  have e3 : counted (goTo (nextPc p (setCtx f s)) (setCtx f s)) = goTo (nextPc p (setCtx f s)) (setCtx f s) := counted_nil (by rw [e2]; exact hl)
  refine ⟨_, ?_, ⟨?_, ?_⟩, e2⟩
  · rw [run_ok ha (by rw [e1, e2]; rfl), e1, e3]
  · rfl
  · intro k hk
    rw [goTo, setCtx, ctxAt_setCtxAt hc']
    have h1 : k ≠ (setCtx f s).core.cur := by simpa using hk
    rw [if_neg h1, setCtx, ctxAt_setCtxAt hc, if_neg hk]

/-- The effect of a whole instruction that goes somewhere. -/
theorem run_goTo {s : State} (h : s.plain) (a : Nat) : ∃ t, run s (.ok (goTo a s)) = .next t ∧ onlyCtx s t ∧ standsAt a s t := by
  have hc := h.cur
  have e2 : ctx (goTo a s) = (ctx s).wentTo a := by rw [goTo, ctx_setCtx hc]
  refine ⟨goTo a s, ?_, ⟨rfl, ?_⟩, e2⟩
  · rw [run_ok h.2.1 (by rw [e2]; rfl), counted_nil (by rw [e2]; exact h.2.2.2.1)]
  · intro k hk
    rw [goTo, setCtx, ctxAt_setCtxAt hc, if_neg hk]

end Sys2Proof.Machine
end

