-- ==== Sys2Proof/Laws/PerInstr.lean ====
section
/-! SUPPORT. Statements made for each instruction: the base word of a base function, read under its page, selects the function
itself, with every operand (R75, R86, R91). -/

namespace Sys2Proof.Laws

open Sys2Proof.Machine

/-! ## The fields of a base word -/

theorem wordR_maj (m : Nat) (a b f : BitVec 4) (h : m < 16) : ((wordR m a b f).extractLsb' 12 4).toNat = m := by
  have := a.isLt; have := b.isLt; have := f.isLt
  simp [wordR, BitVec.extractLsb'_toNat, Nat.shiftRight_eq_div_pow]; omega
theorem wordR_a (m : Nat) (a b f : BitVec 4) : (wordR m a b f).extractLsb' 8 4 = a := by
  have := a.isLt; have := b.isLt; have := f.isLt
  apply BitVec.eq_of_toNat_eq
  simp [wordR, BitVec.extractLsb'_toNat, Nat.shiftRight_eq_div_pow]; omega
theorem wordR_b (m : Nat) (a b f : BitVec 4) : (wordR m a b f).extractLsb' 4 4 = b := by
  have := a.isLt; have := b.isLt; have := f.isLt
  apply BitVec.eq_of_toNat_eq
  simp [wordR, BitVec.extractLsb'_toNat, Nat.shiftRight_eq_div_pow]; omega
theorem wordR_f (m : Nat) (a b f : BitVec 4) : (wordR m a b f).extractLsb' 0 4 = f := by
  have := a.isLt; have := b.isLt; have := f.isLt
  apply BitVec.eq_of_toNat_eq
  simp [wordR, BitVec.extractLsb'_toNat]; omega
theorem word8_maj (m : Nat) (a : BitVec 4) (i : BitVec 8) (h : m < 16) : ((word8 m a i).extractLsb' 12 4).toNat = m := by
  have := a.isLt; have := i.isLt
  simp [word8, BitVec.extractLsb'_toNat, Nat.shiftRight_eq_div_pow]; omega
theorem word8_a (m : Nat) (a : BitVec 4) (i : BitVec 8) : (word8 m a i).extractLsb' 8 4 = a := by
  have := a.isLt; have := i.isLt
  apply BitVec.eq_of_toNat_eq
  simp [word8, BitVec.extractLsb'_toNat, Nat.shiftRight_eq_div_pow]; omega
theorem word8_i (m : Nat) (a : BitVec 4) (i : BitVec 8) : (word8 m a i).extractLsb' 0 8 = i := by
  have := a.isLt; have := i.isLt
  apply BitVec.eq_of_toNat_eq
  simp [word8, BitVec.extractLsb'_toNat]; omega

theorem select_wordR (p : Pre) (m : Nat) (a b f : BitVec 4) (h : m < 16) :
    select p (wordR m a b f) = selectAt p m a b f ((wordR m a b f).extractLsb' 0 8) (pageNum p) := by
  rw [select, wordR_maj m a b f h, wordR_a, wordR_b, wordR_f]
theorem select_word8 (p : Pre) (m : Nat) (a : BitVec 4) (i : BitVec 8) (h : m < 16) :
    select p (word8 m a i) = selectAt p m a ((word8 m a i).extractLsb' 4 4) ((word8 m a i).extractLsb' 0 4) i (pageNum p) := by
  rw [select, word8_maj m a i h, word8_a, word8_i]

/-! ## Every base word selects its function -/

/-- The base word of a base function selects it, under its own page. -/
def Chosen.Statement (i : Instr) : Prop :=
  isBase i = true → pageNum (preOf i) = pageOf i → select (preOf i) (baseWord i) = some i

/-- For the functions of the R and L formats. -/
theorem Chosen.ofR {i : Instr} {m : Nat} {a b f : BitVec 4} (hm : m < 16) (hw : baseWord i = wordR m a b f)
    (h : selectAt (preOf i) m a b f ((wordR m a b f).extractLsb' 0 8) (pageOf i) = some i) : Chosen.Statement i := by
  intro _ hp
  rw [hw, select_wordR _ _ _ _ _ hm, hp, h]
/-- For the functions of the I8 and C formats. -/
theorem Chosen.of8 {i : Instr} {m : Nat} {a : BitVec 4} {k : BitVec 8} (hm : m < 16) (hw : baseWord i = word8 m a k)
    (h : selectAt (preOf i) m a ((word8 m a k).extractLsb' 4 4) ((word8 m a k).extractLsb' 0 4) k (pageOf i) = some i) :
    Chosen.Statement i := by
  intro _ hp
  rw [hw, select_word8 _ _ _ _ hm, hp, h]

theorem Chosen.sysNop : Chosen.Statement .sysNop :=
  Chosen.ofR (by decide) rfl rfl
theorem Chosen.sysEnd : Chosen.Statement .sysEnd :=
  Chosen.ofR (by decide) rfl rfl
theorem Chosen.sysEndP : Chosen.Statement .sysEndP :=
  Chosen.ofR (by decide) rfl rfl
theorem Chosen.sysAbort : Chosen.Statement .sysAbort :=
  Chosen.ofR (by decide) rfl rfl
theorem Chosen.sysBrk : ∀ x0, Chosen.Statement (.sysBrk x0) :=
  fun _ => Chosen.ofR (by decide) rfl rfl
theorem Chosen.sysSvc : ∀ x0, Chosen.Statement (.sysSvc x0) :=
  fun _ => Chosen.ofR (by decide) rfl rfl
theorem Chosen.sysRett : Chosen.Statement .sysRett :=
  Chosen.ofR (by decide) rfl rfl
theorem Chosen.sysIdle : Chosen.Statement .sysIdle :=
  Chosen.ofR (by decide) rfl rfl
theorem Chosen.sysSplit : Chosen.Statement .sysSplit :=
  Chosen.ofR (by decide) rfl rfl
theorem Chosen.sysFence : ∀ x0, Chosen.Statement (.sysFence x0) :=
  fun _ => Chosen.ofR (by decide) rfl rfl
theorem Chosen.sysFenceRel : ∀ x0, Chosen.Statement (.sysFenceRel x0) :=
  fun _ => Chosen.ofR (by decide) rfl rfl
theorem Chosen.sysFenceAcq : ∀ x0, Chosen.Statement (.sysFenceAcq x0) :=
  fun _ => Chosen.ofR (by decide) rfl rfl
theorem Chosen.sysFenceDrain : ∀ x0, Chosen.Statement (.sysFenceDrain x0) :=
  fun _ => Chosen.ofR (by decide) rfl rfl
theorem Chosen.sysFenceIbar : Chosen.Statement .sysFenceIbar :=
  Chosen.ofR (by decide) rfl rfl
theorem Chosen.sysVtype : ∀ x0 x1, Chosen.Statement (.sysVtype x0 x1) :=
  fun _ _ => Chosen.ofR (by decide) rfl rfl
theorem Chosen.sysRep : ∀ x0 x1 x2, Chosen.Statement (.sysRep x0 x1 x2) :=
  fun _ _ _ => Chosen.ofR (by decide) rfl rfl
theorem Chosen.aluAdd : ∀ x0 x1 x2, Chosen.Statement (.aluAdd x0 x1 x2) :=
  fun _ _ _ => Chosen.ofR (by decide) rfl rfl
theorem Chosen.aluSub : ∀ x0 x1 x2, Chosen.Statement (.aluSub x0 x1 x2) :=
  fun _ _ _ => Chosen.ofR (by decide) rfl rfl
theorem Chosen.aluAnd : ∀ x0 x1 x2, Chosen.Statement (.aluAnd x0 x1 x2) :=
  fun _ _ _ => Chosen.ofR (by decide) rfl rfl
theorem Chosen.aluOr : ∀ x0 x1 x2, Chosen.Statement (.aluOr x0 x1 x2) :=
  fun _ _ _ => Chosen.ofR (by decide) rfl rfl
theorem Chosen.aluXor : ∀ x0 x1 x2, Chosen.Statement (.aluXor x0 x1 x2) :=
  fun _ _ _ => Chosen.ofR (by decide) rfl rfl
theorem Chosen.aluShl : ∀ x0 x1 x2, Chosen.Statement (.aluShl x0 x1 x2) :=
  fun _ _ _ => Chosen.ofR (by decide) rfl rfl
theorem Chosen.aluShr : ∀ x0 x1 x2, Chosen.Statement (.aluShr x0 x1 x2) :=
  fun _ _ _ => Chosen.ofR (by decide) rfl rfl
theorem Chosen.aluSar : ∀ x0 x1 x2, Chosen.Statement (.aluSar x0 x1 x2) :=
  fun _ _ _ => Chosen.ofR (by decide) rfl rfl
theorem Chosen.aluMul : ∀ x0 x1 x2, Chosen.Statement (.aluMul x0 x1 x2) :=
  fun _ _ _ => Chosen.ofR (by decide) rfl rfl
theorem Chosen.aluMulh : ∀ x0 x1 x2, Chosen.Statement (.aluMulh x0 x1 x2) :=
  fun _ _ _ => Chosen.ofR (by decide) rfl rfl
theorem Chosen.aluMulhn : ∀ x0 x1 x2, Chosen.Statement (.aluMulhn x0 x1 x2) :=
  fun _ _ _ => Chosen.ofR (by decide) rfl rfl
theorem Chosen.aluMin : ∀ x0 x1 x2, Chosen.Statement (.aluMin x0 x1 x2) :=
  fun _ _ _ => Chosen.ofR (by decide) rfl rfl
theorem Chosen.aluMax : ∀ x0 x1 x2, Chosen.Statement (.aluMax x0 x1 x2) :=
  fun _ _ _ => Chosen.ofR (by decide) rfl rfl
theorem Chosen.aluMinn : ∀ x0 x1 x2, Chosen.Statement (.aluMinn x0 x1 x2) :=
  fun _ _ _ => Chosen.ofR (by decide) rfl rfl
theorem Chosen.aluMaxn : ∀ x0 x1 x2, Chosen.Statement (.aluMaxn x0 x1 x2) :=
  fun _ _ _ => Chosen.ofR (by decide) rfl rfl
theorem Chosen.aluCmp : ∀ x0 x1 x2, Chosen.Statement (.aluCmp x0 x1 x2) :=
  fun _ _ _ => Chosen.ofR (by decide) rfl rfl
theorem Chosen.aluiAddi : ∀ x0 x1 x2, Chosen.Statement (.aluiAddi x0 x1 x2) :=
  fun _ _ _ => Chosen.ofR (by decide) rfl rfl
theorem Chosen.aluiAndi : ∀ x0 x1 x2, Chosen.Statement (.aluiAndi x0 x1 x2) :=
  fun _ _ _ => Chosen.ofR (by decide) rfl rfl
theorem Chosen.aluiOri : ∀ x0 x1 x2, Chosen.Statement (.aluiOri x0 x1 x2) :=
  fun _ _ _ => Chosen.ofR (by decide) rfl rfl
theorem Chosen.aluiXori : ∀ x0 x1 x2, Chosen.Statement (.aluiXori x0 x1 x2) :=
  fun _ _ _ => Chosen.ofR (by decide) rfl rfl
theorem Chosen.aluiShli : ∀ x0 x1 x2, Chosen.Statement (.aluiShli x0 x1 x2) :=
  fun _ _ _ => Chosen.ofR (by decide) rfl rfl
theorem Chosen.aluiShri : ∀ x0 x1 x2, Chosen.Statement (.aluiShri x0 x1 x2) :=
  fun _ _ _ => Chosen.ofR (by decide) rfl rfl
theorem Chosen.aluiSari : ∀ x0 x1 x2, Chosen.Statement (.aluiSari x0 x1 x2) :=
  fun _ _ _ => Chosen.ofR (by decide) rfl rfl
theorem Chosen.aluiMuli : ∀ x0 x1 x2, Chosen.Statement (.aluiMuli x0 x1 x2) :=
  fun _ _ _ => Chosen.ofR (by decide) rfl rfl
theorem Chosen.aluiCmpi : ∀ x0 x1 x2, Chosen.Statement (.aluiCmpi x0 x1 x2) :=
  fun _ _ _ => Chosen.ofR (by decide) rfl rfl
theorem Chosen.aluiMini : ∀ x0 x1 x2, Chosen.Statement (.aluiMini x0 x1 x2) :=
  fun _ _ _ => Chosen.ofR (by decide) rfl rfl
theorem Chosen.aluiMaxi : ∀ x0 x1 x2, Chosen.Statement (.aluiMaxi x0 x1 x2) :=
  fun _ _ _ => Chosen.ofR (by decide) rfl rfl
theorem Chosen.aluiLda : ∀ x0 x1 x2, Chosen.Statement (.aluiLda x0 x1 x2) :=
  fun _ _ _ => Chosen.ofR (by decide) rfl rfl
theorem Chosen.movi : ∀ x0 x1 x2, Chosen.Statement (.movi x0 x1 x2) :=
  fun _ _ _ => Chosen.of8 (by decide) rfl rfl
theorem Chosen.ldap : ∀ x0 x1 x2, Chosen.Statement (.ldap x0 x1 x2) :=
  fun _ _ _ => Chosen.of8 (by decide) rfl rfl
theorem Chosen.fpuFadd : ∀ x0 x1 x2, Chosen.Statement (.fpuFadd x0 x1 x2) :=
  fun _ _ _ => Chosen.ofR (by decide) rfl rfl
theorem Chosen.fpuFsub : ∀ x0 x1 x2, Chosen.Statement (.fpuFsub x0 x1 x2) :=
  fun _ _ _ => Chosen.ofR (by decide) rfl rfl
theorem Chosen.fpuFmul : ∀ x0 x1 x2, Chosen.Statement (.fpuFmul x0 x1 x2) :=
  fun _ _ _ => Chosen.ofR (by decide) rfl rfl
theorem Chosen.fpuFma : ∀ x0 x1 x2, Chosen.Statement (.fpuFma x0 x1 x2) :=
  fun _ _ _ => Chosen.ofR (by decide) rfl rfl
theorem Chosen.fpuFmin : ∀ x0 x1 x2, Chosen.Statement (.fpuFmin x0 x1 x2) :=
  fun _ _ _ => Chosen.ofR (by decide) rfl rfl
theorem Chosen.fpuFmax : ∀ x0 x1 x2, Chosen.Statement (.fpuFmax x0 x1 x2) :=
  fun _ _ _ => Chosen.ofR (by decide) rfl rfl
theorem Chosen.fpuFcmp : ∀ x0 x1 x2, Chosen.Statement (.fpuFcmp x0 x1 x2) :=
  fun _ _ _ => Chosen.ofR (by decide) rfl rfl
theorem Chosen.fpuFabs : ∀ x0 x1 x2, Chosen.Statement (.fpuFabs x0 x1 x2) :=
  fun _ _ _ => Chosen.ofR (by decide) rfl rfl
theorem Chosen.fpuFneg : ∀ x0 x1 x2, Chosen.Statement (.fpuFneg x0 x1 x2) :=
  fun _ _ _ => Chosen.ofR (by decide) rfl rfl
theorem Chosen.fpuFcvti : ∀ x0 x1 x2, Chosen.Statement (.fpuFcvti x0 x1 x2) :=
  fun _ _ _ => Chosen.ofR (by decide) rfl rfl
theorem Chosen.fpuFcvtf : ∀ x0 x1 x2, Chosen.Statement (.fpuFcvtf x0 x1 x2) :=
  fun _ _ _ => Chosen.ofR (by decide) rfl rfl
theorem Chosen.fpuFcvt : ∀ x0 x1 x2, Chosen.Statement (.fpuFcvt x0 x1 x2) :=
  fun _ _ _ => Chosen.ofR (by decide) rfl rfl
theorem Chosen.fpuFclass : ∀ x0 x1 x2, Chosen.Statement (.fpuFclass x0 x1 x2) :=
  fun _ _ _ => Chosen.ofR (by decide) rfl rfl
theorem Chosen.fpuFrnd : ∀ x0 x1 x2, Chosen.Statement (.fpuFrnd x0 x1 x2) :=
  fun _ _ _ => Chosen.ofR (by decide) rfl rfl
theorem Chosen.fpuFscl : ∀ x0 x1 x2, Chosen.Statement (.fpuFscl x0 x1 x2) :=
  fun _ _ _ => Chosen.ofR (by decide) rfl rfl
theorem Chosen.brcB : ∀ x0 x1, Chosen.Statement (.brcB x0 x1) :=
  fun _ _ => Chosen.of8 (by decide) rfl rfl
theorem Chosen.brcEq : ∀ x0 x1, Chosen.Statement (.brcEq x0 x1) :=
  fun _ _ => Chosen.of8 (by decide) rfl rfl
theorem Chosen.brcNe : ∀ x0 x1, Chosen.Statement (.brcNe x0 x1) :=
  fun _ _ => Chosen.of8 (by decide) rfl rfl
theorem Chosen.brcLt : ∀ x0 x1, Chosen.Statement (.brcLt x0 x1) :=
  fun _ _ => Chosen.of8 (by decide) rfl rfl
theorem Chosen.brcGe : ∀ x0 x1, Chosen.Statement (.brcGe x0 x1) :=
  fun _ _ => Chosen.of8 (by decide) rfl rfl
theorem Chosen.brcGt : ∀ x0 x1, Chosen.Statement (.brcGt x0 x1) :=
  fun _ _ => Chosen.of8 (by decide) rfl rfl
theorem Chosen.brcLe : ∀ x0 x1, Chosen.Statement (.brcLe x0 x1) :=
  fun _ _ => Chosen.of8 (by decide) rfl rfl
theorem Chosen.brcLo : ∀ x0 x1, Chosen.Statement (.brcLo x0 x1) :=
  fun _ _ => Chosen.of8 (by decide) rfl rfl
theorem Chosen.brcHs : ∀ x0 x1, Chosen.Statement (.brcHs x0 x1) :=
  fun _ _ => Chosen.of8 (by decide) rfl rfl
theorem Chosen.brcHi : ∀ x0 x1, Chosen.Statement (.brcHi x0 x1) :=
  fun _ _ => Chosen.of8 (by decide) rfl rfl
theorem Chosen.brcLs : ∀ x0 x1, Chosen.Statement (.brcLs x0 x1) :=
  fun _ _ => Chosen.of8 (by decide) rfl rfl
theorem Chosen.brcUn : ∀ x0 x1, Chosen.Statement (.brcUn x0 x1) :=
  fun _ _ => Chosen.of8 (by decide) rfl rfl
theorem Chosen.brcOr : ∀ x0 x1, Chosen.Statement (.brcOr x0 x1) :=
  fun _ _ => Chosen.of8 (by decide) rfl rfl
theorem Chosen.brcVs : ∀ x0 x1, Chosen.Statement (.brcVs x0 x1) :=
  fun _ _ => Chosen.of8 (by decide) rfl rfl
theorem Chosen.brcVc : ∀ x0 x1, Chosen.Statement (.brcVc x0 x1) :=
  fun _ _ => Chosen.of8 (by decide) rfl rfl
theorem Chosen.brcCall : ∀ x0 x1, Chosen.Statement (.brcCall x0 x1) :=
  fun _ _ => Chosen.of8 (by decide) rfl rfl
theorem Chosen.xferMov : ∀ x0 x1 x2, Chosen.Statement (.xferMov x0 x1 x2) :=
  fun _ _ _ => Chosen.ofR (by decide) rfl rfl
theorem Chosen.xferJr : ∀ x0 x1, Chosen.Statement (.xferJr x0 x1) :=
  fun _ _ => Chosen.ofR (by decide) rfl rfl
theorem Chosen.xferCallr : ∀ x0 x1, Chosen.Statement (.xferCallr x0 x1) :=
  fun _ _ => Chosen.ofR (by decide) rfl rfl
theorem Chosen.xferRet : ∀ x0, Chosen.Statement (.xferRet x0) :=
  fun _ => Chosen.ofR (by decide) rfl rfl
theorem Chosen.xferQcall : ∀ x0 x1, Chosen.Statement (.xferQcall x0 x1) :=
  fun _ _ => Chosen.ofR (by decide) rfl rfl
theorem Chosen.xferMfs : ∀ x0 x1 x2, Chosen.Statement (.xferMfs x0 x1 x2) :=
  fun _ _ _ => Chosen.ofR (by decide) rfl rfl
theorem Chosen.xferMts : ∀ x0 x1 x2, Chosen.Statement (.xferMts x0 x1 x2) :=
  fun _ _ _ => Chosen.ofR (by decide) rfl rfl
theorem Chosen.xferStart : ∀ x0 x1 x2, Chosen.Statement (.xferStart x0 x1 x2) :=
  fun _ _ _ => Chosen.ofR (by decide) rfl rfl
theorem Chosen.xferJoinh : ∀ x0 x1, Chosen.Statement (.xferJoinh x0 x1) :=
  fun _ _ => Chosen.ofR (by decide) rfl rfl
theorem Chosen.xferCpl : ∀ x0 x1, Chosen.Statement (.xferCpl x0 x1) :=
  fun _ _ => Chosen.ofR (by decide) rfl rfl
theorem Chosen.xferClz : ∀ x0 x1 x2, Chosen.Statement (.xferClz x0 x1 x2) :=
  fun _ _ _ => Chosen.ofR (by decide) rfl rfl
theorem Chosen.xferPopc : ∀ x0 x1 x2, Chosen.Statement (.xferPopc x0 x1 x2) :=
  fun _ _ _ => Chosen.ofR (by decide) rfl rfl
theorem Chosen.xferBswap : ∀ x0 x1 x2, Chosen.Statement (.xferBswap x0 x1 x2) :=
  fun _ _ _ => Chosen.ofR (by decide) rfl rfl
theorem Chosen.xferTst : ∀ x0 x1 x2, Chosen.Statement (.xferTst x0 x1 x2) :=
  fun _ _ _ => Chosen.ofR (by decide) rfl rfl
theorem Chosen.xferPurge : ∀ x0 x1, Chosen.Statement (.xferPurge x0 x1) :=
  fun _ _ => Chosen.ofR (by decide) rfl rfl
theorem Chosen.xferIinv : ∀ x0 x1 x2, Chosen.Statement (.xferIinv x0 x1 x2) :=
  fun _ _ _ => Chosen.ofR (by decide) rfl rfl
theorem Chosen.ld : ∀ x0 x1 x2 x3, Chosen.Statement (.ld x0 x1 x2 x3) :=
  fun _ _ _ _ => Chosen.ofR (by decide) rfl rfl
theorem Chosen.ldV : ∀ x0 x1 x2 x3, Chosen.Statement (.ldV x0 x1 x2 x3) :=
  fun _ _ _ _ => Chosen.ofR (by decide) rfl rfl
theorem Chosen.st : ∀ x0 x1 x2 x3, Chosen.Statement (.st x0 x1 x2 x3) :=
  fun _ _ _ _ => Chosen.ofR (by decide) rfl rfl
theorem Chosen.stV : ∀ x0 x1 x2 x3, Chosen.Statement (.stV x0 x1 x2 x3) :=
  fun _ _ _ _ => Chosen.ofR (by decide) rfl rfl
theorem Chosen.vecAdd : ∀ x0 x1 x2, Chosen.Statement (.vecAdd x0 x1 x2) :=
  fun _ _ _ => Chosen.ofR (by decide) rfl rfl
theorem Chosen.vecSub : ∀ x0 x1 x2, Chosen.Statement (.vecSub x0 x1 x2) :=
  fun _ _ _ => Chosen.ofR (by decide) rfl rfl
theorem Chosen.vecMul : ∀ x0 x1 x2, Chosen.Statement (.vecMul x0 x1 x2) :=
  fun _ _ _ => Chosen.ofR (by decide) rfl rfl
theorem Chosen.vecFma : ∀ x0 x1 x2, Chosen.Statement (.vecFma x0 x1 x2) :=
  fun _ _ _ => Chosen.ofR (by decide) rfl rfl
theorem Chosen.vecMin : ∀ x0 x1 x2, Chosen.Statement (.vecMin x0 x1 x2) :=
  fun _ _ _ => Chosen.ofR (by decide) rfl rfl
theorem Chosen.vecMax : ∀ x0 x1 x2, Chosen.Statement (.vecMax x0 x1 x2) :=
  fun _ _ _ => Chosen.ofR (by decide) rfl rfl
theorem Chosen.vecAnd : ∀ x0 x1 x2, Chosen.Statement (.vecAnd x0 x1 x2) :=
  fun _ _ _ => Chosen.ofR (by decide) rfl rfl
theorem Chosen.vecOr : ∀ x0 x1 x2, Chosen.Statement (.vecOr x0 x1 x2) :=
  fun _ _ _ => Chosen.ofR (by decide) rfl rfl
theorem Chosen.vecXor : ∀ x0 x1 x2, Chosen.Statement (.vecXor x0 x1 x2) :=
  fun _ _ _ => Chosen.ofR (by decide) rfl rfl
theorem Chosen.vecShl : ∀ x0 x1 x2, Chosen.Statement (.vecShl x0 x1 x2) :=
  fun _ _ _ => Chosen.ofR (by decide) rfl rfl
theorem Chosen.vecShr : ∀ x0 x1 x2, Chosen.Statement (.vecShr x0 x1 x2) :=
  fun _ _ _ => Chosen.ofR (by decide) rfl rfl
theorem Chosen.vecSar : ∀ x0 x1 x2, Chosen.Statement (.vecSar x0 x1 x2) :=
  fun _ _ _ => Chosen.ofR (by decide) rfl rfl
theorem Chosen.vecAbs : ∀ x0 x1 x2, Chosen.Statement (.vecAbs x0 x1 x2) :=
  fun _ _ _ => Chosen.ofR (by decide) rfl rfl
theorem Chosen.vecNeg : ∀ x0 x1 x2, Chosen.Statement (.vecNeg x0 x1 x2) :=
  fun _ _ _ => Chosen.ofR (by decide) rfl rfl
theorem Chosen.vecMov : ∀ x0 x1 x2, Chosen.Statement (.vecMov x0 x1 x2) :=
  fun _ _ _ => Chosen.ofR (by decide) rfl rfl
theorem Chosen.vecBc : ∀ x0 x1 x2, Chosen.Statement (.vecBc x0 x1 x2) :=
  fun _ _ _ => Chosen.ofR (by decide) rfl rfl
theorem Chosen.vecCeq : ∀ x0 x1 x2, Chosen.Statement (.vecCeq x0 x1 x2) :=
  fun _ _ _ => Chosen.ofR (by decide) rfl rfl
theorem Chosen.vecClt : ∀ x0 x1 x2, Chosen.Statement (.vecClt x0 x1 x2) :=
  fun _ _ _ => Chosen.ofR (by decide) rfl rfl
theorem Chosen.vecCle : ∀ x0 x1 x2, Chosen.Statement (.vecCle x0 x1 x2) :=
  fun _ _ _ => Chosen.ofR (by decide) rfl rfl
theorem Chosen.vecSel : ∀ x0 x1 x2, Chosen.Statement (.vecSel x0 x1 x2) :=
  fun _ _ _ => Chosen.ofR (by decide) rfl rfl
theorem Chosen.vecRsum : ∀ x0 x1 x2, Chosen.Statement (.vecRsum x0 x1 x2) :=
  fun _ _ _ => Chosen.ofR (by decide) rfl rfl
theorem Chosen.vecRmax : ∀ x0 x1 x2, Chosen.Statement (.vecRmax x0 x1 x2) :=
  fun _ _ _ => Chosen.ofR (by decide) rfl rfl
theorem Chosen.vecRmin : ∀ x0 x1 x2, Chosen.Statement (.vecRmin x0 x1 x2) :=
  fun _ _ _ => Chosen.ofR (by decide) rfl rfl
theorem Chosen.vecPerm : ∀ x0 x1 x2, Chosen.Statement (.vecPerm x0 x1 x2) :=
  fun _ _ _ => Chosen.ofR (by decide) rfl rfl
theorem Chosen.vecSld : ∀ x0 x1 x2, Chosen.Statement (.vecSld x0 x1 x2) :=
  fun _ _ _ => Chosen.ofR (by decide) rfl rfl
theorem Chosen.vecExt : ∀ x0 x1 x2, Chosen.Statement (.vecExt x0 x1 x2) :=
  fun _ _ _ => Chosen.ofR (by decide) rfl rfl
theorem Chosen.vecIns : ∀ x0 x1 x2, Chosen.Statement (.vecIns x0 x1 x2) :=
  fun _ _ _ => Chosen.ofR (by decide) rfl rfl
theorem Chosen.vecDot : ∀ x0 x1 x2, Chosen.Statement (.vecDot x0 x1 x2) :=
  fun _ _ _ => Chosen.ofR (by decide) rfl rfl
theorem Chosen.vecIota : ∀ x0 x1 x2, Chosen.Statement (.vecIota x0 x1 x2) :=
  fun _ _ _ => Chosen.ofR (by decide) rfl rfl
theorem Chosen.vecCvt : ∀ x0 x1 x2, Chosen.Statement (.vecCvt x0 x1 x2) :=
  fun _ _ _ => Chosen.ofR (by decide) rfl rfl
theorem Chosen.vecQnt : ∀ x0 x1 x2, Chosen.Statement (.vecQnt x0 x1 x2) :=
  fun _ _ _ => Chosen.ofR (by decide) rfl rfl
theorem Chosen.vecDqnt : ∀ x0 x1 x2, Chosen.Statement (.vecDqnt x0 x1 x2) :=
  fun _ _ _ => Chosen.ofR (by decide) rfl rfl
theorem Chosen.vecPack : ∀ x0 x1 x2, Chosen.Statement (.vecPack x0 x1 x2) :=
  fun _ _ _ => Chosen.ofR (by decide) rfl rfl
theorem Chosen.vecUnpk : ∀ x0 x1 x2, Chosen.Statement (.vecUnpk x0 x1 x2) :=
  fun _ _ _ => Chosen.ofR (by decide) rfl rfl
theorem Chosen.vecLut : ∀ x0 x1 x2, Chosen.Statement (.vecLut x0 x1 x2) :=
  fun _ _ _ => Chosen.ofR (by decide) rfl rfl
theorem Chosen.vecLdtb : ∀ x0 x1, Chosen.Statement (.vecLdtb x0 x1) :=
  fun _ _ => Chosen.ofR (by decide) rfl rfl
theorem Chosen.vecRnd : ∀ x0 x1 x2, Chosen.Statement (.vecRnd x0 x1 x2) :=
  fun _ _ _ => Chosen.ofR (by decide) rfl rfl
theorem Chosen.vecAddi : ∀ x0 x1 x2, Chosen.Statement (.vecAddi x0 x1 x2) :=
  fun _ _ _ => Chosen.ofR (by decide) rfl rfl
theorem Chosen.vecMuli : ∀ x0 x1 x2, Chosen.Statement (.vecMuli x0 x1 x2) :=
  fun _ _ _ => Chosen.ofR (by decide) rfl rfl
theorem Chosen.vecMini : ∀ x0 x1 x2, Chosen.Statement (.vecMini x0 x1 x2) :=
  fun _ _ _ => Chosen.ofR (by decide) rfl rfl
theorem Chosen.vecMaxi : ∀ x0 x1 x2, Chosen.Statement (.vecMaxi x0 x1 x2) :=
  fun _ _ _ => Chosen.ofR (by decide) rfl rfl
theorem Chosen.vecCeqi : ∀ x0 x1 x2, Chosen.Statement (.vecCeqi x0 x1 x2) :=
  fun _ _ _ => Chosen.ofR (by decide) rfl rfl
theorem Chosen.vecClti : ∀ x0 x1 x2, Chosen.Statement (.vecClti x0 x1 x2) :=
  fun _ _ _ => Chosen.ofR (by decide) rfl rfl
theorem Chosen.vecBci : ∀ x0 x1 x2, Chosen.Statement (.vecBci x0 x1 x2) :=
  fun _ _ _ => Chosen.ofR (by decide) rfl rfl
theorem Chosen.vecFmai : ∀ x0 x1 x2, Chosen.Statement (.vecFmai x0 x1 x2) :=
  fun _ _ _ => Chosen.ofR (by decide) rfl rfl
theorem Chosen.longDiv : ∀ x0 x1 x2 x3, Chosen.Statement (.longDiv x0 x1 x2 x3) :=
  fun _ _ _ _ => Chosen.ofR (by decide) rfl rfl
theorem Chosen.longDivn : ∀ x0 x1 x2 x3, Chosen.Statement (.longDivn x0 x1 x2 x3) :=
  fun _ _ _ _ => Chosen.ofR (by decide) rfl rfl
theorem Chosen.longRem : ∀ x0 x1 x2 x3, Chosen.Statement (.longRem x0 x1 x2 x3) :=
  fun _ _ _ _ => Chosen.ofR (by decide) rfl rfl
theorem Chosen.longRemn : ∀ x0 x1 x2 x3, Chosen.Statement (.longRemn x0 x1 x2 x3) :=
  fun _ _ _ _ => Chosen.ofR (by decide) rfl rfl
theorem Chosen.longFdiv : ∀ x0 x1 x2 x3, Chosen.Statement (.longFdiv x0 x1 x2 x3) :=
  fun _ _ _ _ => Chosen.ofR (by decide) rfl rfl
theorem Chosen.longFsqrt : ∀ x0 x1 x2 x3, Chosen.Statement (.longFsqrt x0 x1 x2 x3) :=
  fun _ _ _ _ => Chosen.ofR (by decide) rfl rfl
theorem Chosen.longVexp2 : ∀ x0 x1 x2 x3, Chosen.Statement (.longVexp2 x0 x1 x2 x3) :=
  fun _ _ _ _ => Chosen.ofR (by decide) rfl rfl
theorem Chosen.longVrcp : ∀ x0 x1 x2 x3, Chosen.Statement (.longVrcp x0 x1 x2 x3) :=
  fun _ _ _ _ => Chosen.ofR (by decide) rfl rfl
theorem Chosen.longVrsq : ∀ x0 x1 x2 x3, Chosen.Statement (.longVrsq x0 x1 x2 x3) :=
  fun _ _ _ _ => Chosen.ofR (by decide) rfl rfl
theorem Chosen.longVlog2 : ∀ x0 x1 x2 x3, Chosen.Statement (.longVlog2 x0 x1 x2 x3) :=
  fun _ _ _ _ => Chosen.ofR (by decide) rfl rfl
theorem Chosen.longCwait : ∀ x0 x1 x2, Chosen.Statement (.longCwait x0 x1 x2) :=
  fun _ _ _ => Chosen.ofR (by decide) rfl rfl
theorem Chosen.longCread : ∀ x0 x1 x2 x3, Chosen.Statement (.longCread x0 x1 x2 x3) :=
  fun _ _ _ _ => Chosen.ofR (by decide) rfl rfl
theorem Chosen.longCtest : ∀ x0 x1 x2 x3, Chosen.Statement (.longCtest x0 x1 x2 x3) :=
  fun _ _ _ _ => Chosen.ofR (by decide) rfl rfl
theorem Chosen.longWpwait : ∀ x0 x1 x2, Chosen.Statement (.longWpwait x0 x1 x2) :=
  fun _ _ _ => Chosen.ofR (by decide) rfl rfl
theorem Chosen.longSopen : ∀ x0 x1 x2 x3, Chosen.Statement (.longSopen x0 x1 x2 x3) :=
  fun _ _ _ _ => Chosen.ofR (by decide) rfl rfl
theorem Chosen.sendMsg : ∀ x0 x1 x2 x3, Chosen.Statement (.sendMsg x0 x1 x2 x3) :=
  fun _ _ _ _ => Chosen.ofR (by decide) rfl rfl
theorem Chosen.sendQmsg : ∀ x0 x1 x2 x3, Chosen.Statement (.sendQmsg x0 x1 x2 x3) :=
  fun _ _ _ _ => Chosen.ofR (by decide) rfl rfl
theorem Chosen.sendItem : ∀ x0 x1 x2 x3, Chosen.Statement (.sendItem x0 x1 x2 x3) :=
  fun _ _ _ _ => Chosen.ofR (by decide) rfl rfl
theorem Chosen.sendMpush : ∀ x0 x1 x2 x3, Chosen.Statement (.sendMpush x0 x1 x2 x3) :=
  fun _ _ _ _ => Chosen.ofR (by decide) rfl rfl
theorem Chosen.sendCpush : ∀ x0 x1 x2 x3, Chosen.Statement (.sendCpush x0 x1 x2 x3) :=
  fun _ _ _ _ => Chosen.ofR (by decide) rfl rfl
theorem Chosen.sendSpush : ∀ x0 x1 x2 x3, Chosen.Statement (.sendSpush x0 x1 x2 x3) :=
  fun _ _ _ _ => Chosen.ofR (by decide) rfl rfl
theorem Chosen.sendCadd : ∀ x0 x1 x2 x3, Chosen.Statement (.sendCadd x0 x1 x2 x3) :=
  fun _ _ _ _ => Chosen.ofR (by decide) rfl rfl
theorem Chosen.sendCaddr : ∀ x0 x1 x2 x3, Chosen.Statement (.sendCaddr x0 x1 x2 x3) :=
  fun _ _ _ _ => Chosen.ofR (by decide) rfl rfl
theorem Chosen.sendArm : ∀ x0 x1 x2 x3, Chosen.Statement (.sendArm x0 x1 x2 x3) :=
  fun _ _ _ _ => Chosen.ofR (by decide) rfl rfl
theorem Chosen.sendReply : ∀ x0 x1 x2 x3, Chosen.Statement (.sendReply x0 x1 x2 x3) :=
  fun _ _ _ _ => Chosen.ofR (by decide) rfl rfl
theorem Chosen.memSmap : ∀ x0 x1 x2, Chosen.Statement (.memSmap x0 x1 x2) :=
  fun _ _ _ => Chosen.ofR (by decide) rfl rfl
theorem Chosen.memSunmap : ∀ x0 x1, Chosen.Statement (.memSunmap x0 x1) :=
  fun _ _ => Chosen.ofR (by decide) rfl rfl
theorem Chosen.memSflush : ∀ x0 x1 x2, Chosen.Statement (.memSflush x0 x1 x2) :=
  fun _ _ _ => Chosen.ofR (by decide) rfl rfl
theorem Chosen.memSinv : ∀ x0 x1 x2, Chosen.Statement (.memSinv x0 x1 x2) :=
  fun _ _ _ => Chosen.ofR (by decide) rfl rfl
theorem Chosen.memSclose : ∀ x0 x1, Chosen.Statement (.memSclose x0 x1) :=
  fun _ _ => Chosen.ofR (by decide) rfl rfl
theorem Chosen.memLsclr : ∀ x0 x1 x2, Chosen.Statement (.memLsclr x0 x1 x2) :=
  fun _ _ _ => Chosen.ofR (by decide) rfl rfl
theorem Chosen.asyncTrap : ∀ x0, Chosen.Statement (.asyncTrap x0) :=
  fun _ h => nomatch h
theorem Chosen.illegalInstruction : ∀ x0, Chosen.Statement (.illegalInstruction x0) :=
  fun _ h => nomatch h
theorem Chosen.longResultWrite : ∀ x0 x1, Chosen.Statement (.longResultWrite x0 x1) :=
  fun _ _ h => nomatch h
theorem Chosen.idleEnd : ∀ x0 x1, Chosen.Statement (.idleEnd x0 x1) :=
  fun _ _ h => nomatch h
theorem Chosen.svcAnswer : ∀ x0 x1 x2, Chosen.Statement (.svcAnswer x0 x1 x2) :=
  fun _ _ _ h => nomatch h
theorem Chosen.writeBackAccepted : ∀ x0, Chosen.Statement (.writeBackAccepted x0) :=
  fun _ h => nomatch h
theorem Chosen.mma : ∀ x0, Chosen.Statement (.mma x0) :=
  fun _ h => nomatch h
theorem Chosen.mzero : ∀ x0, Chosen.Statement (.mzero x0) :=
  fun _ h => nomatch h
theorem Chosen.mmask : ∀ x0, Chosen.Statement (.mmask x0) :=
  fun _ h => nomatch h
theorem Chosen.mout : ∀ x0, Chosen.Statement (.mout x0) :=
  fun _ h => nomatch h
theorem Chosen.msig : ∀ x0, Chosen.Statement (.msig x0) :=
  fun _ h => nomatch h
theorem Chosen.mlink : ∀ x0, Chosen.Statement (.mlink x0) :=
  fun _ h => nomatch h
theorem Chosen.mnop : ∀ x0, Chosen.Statement (.mnop x0) :=
  fun _ h => nomatch h
theorem Chosen.operandTileArrival : ∀ x0 x1, Chosen.Statement (.operandTileArrival x0 x1) :=
  fun _ _ h => nomatch h
theorem Chosen.skimmerFetch : ∀ x0 x1, Chosen.Statement (.skimmerFetch x0 x1) :=
  fun _ _ h => nomatch h
theorem Chosen.mxuSave : ∀ x0, Chosen.Statement (.mxuSave x0) :=
  fun _ h => nomatch h
theorem Chosen.rectangleRepair : ∀ x0, Chosen.Statement (.rectangleRepair x0) :=
  fun _ h => nomatch h
theorem Chosen.ccopy : ∀ x0 x1, Chosen.Statement (.ccopy x0 x1) :=
  fun _ _ h => nomatch h
theorem Chosen.ccopy2 : ∀ x0 x1, Chosen.Statement (.ccopy2 x0 x1) :=
  fun _ _ h => nomatch h
theorem Chosen.cfill : ∀ x0 x1, Chosen.Statement (.cfill x0 x1) :=
  fun _ _ h => nomatch h
theorem Chosen.csig : ∀ x0 x1, Chosen.Statement (.csig x0 x1) :=
  fun _ _ h => nomatch h
theorem Chosen.sectorDelivery : ∀ x0 x1, Chosen.Statement (.sectorDelivery x0 x1) :=
  fun _ _ h => nomatch h
theorem Chosen.sectorAccepted : ∀ x0 x1, Chosen.Statement (.sectorAccepted x0 x1) :=
  fun _ _ h => nomatch h
theorem Chosen.nrd : ∀ x0, Chosen.Statement (.nrd x0) :=
  fun _ h => nomatch h
theorem Chosen.nwr : ∀ x0, Chosen.Statement (.nwr x0) :=
  fun _ h => nomatch h
theorem Chosen.nfl : ∀ x0, Chosen.Statement (.nfl x0) :=
  fun _ h => nomatch h
theorem Chosen.zdec : ∀ x0, Chosen.Statement (.zdec x0) :=
  fun _ h => nomatch h
theorem Chosen.csum : ∀ x0, Chosen.Statement (.csum x0) :=
  fun _ h => nomatch h
theorem Chosen.storageCompletion : ∀ x0, Chosen.Statement (.storageCompletion x0) :=
  fun _ h => nomatch h
theorem Chosen.commandTimeout : ∀ x0 x1, Chosen.Statement (.commandTimeout x0 x1) :=
  fun _ _ h => nomatch h
theorem Chosen.counterAdd : ∀ x0, Chosen.Statement (.counterAdd x0) :=
  fun _ h => nomatch h
theorem Chosen.armRegistration : ∀ x0, Chosen.Statement (.armRegistration x0) :=
  fun _ h => nomatch h
theorem Chosen.armEmission : ∀ x0, Chosen.Statement (.armEmission x0) :=
  fun _ h => nomatch h
theorem Chosen.cwaitPoll : ∀ x0 x1, Chosen.Statement (.cwaitPoll x0 x1) :=
  fun _ _ h => nomatch h
theorem Chosen.messageArrival : ∀ x0, Chosen.Statement (.messageArrival x0) :=
  fun _ h => nomatch h
theorem Chosen.spillRefill : ∀ x0, Chosen.Statement (.spillRefill x0) :=
  fun _ h => nomatch h
theorem Chosen.deliveryRetry : ∀ x0, Chosen.Statement (.deliveryRetry x0) :=
  fun _ h => nomatch h
theorem Chosen.dispatch : ∀ x0, Chosen.Statement (.dispatch x0) :=
  fun _ h => nomatch h
theorem Chosen.itemAssign : ∀ x0, Chosen.Statement (.itemAssign x0) :=
  fun _ h => nomatch h
theorem Chosen.exportArrival : ∀ x0, Chosen.Statement (.exportArrival x0) :=
  fun _ h => nomatch h
theorem Chosen.vote : ∀ x0, Chosen.Statement (.vote x0) :=
  fun _ h => nomatch h
theorem Chosen.verdict : ∀ x0, Chosen.Statement (.verdict x0) :=
  fun _ h => nomatch h
theorem Chosen.voteTimeout : ∀ x0, Chosen.Statement (.voteTimeout x0) :=
  fun _ h => nomatch h
theorem Chosen.wdog : ∀ x0, Chosen.Statement (.wdog x0) :=
  fun _ h => nomatch h
theorem Chosen.preemption : ∀ x0, Chosen.Statement (.preemption x0) :=
  fun _ h => nomatch h
theorem Chosen.resumption : ∀ x0, Chosen.Statement (.resumption x0) :=
  fun _ h => nomatch h
theorem Chosen.scrub : ∀ x0 x1, Chosen.Statement (.scrub x0 x1) :=
  fun _ _ h => nomatch h
theorem Chosen.versionSwitch : ∀ x0 x1, Chosen.Statement (.versionSwitch x0 x1) :=
  fun _ _ h => nomatch h
theorem Chosen.purgeMark : ∀ x0 x1, Chosen.Statement (.purgeMark x0 x1) :=
  fun _ _ h => nomatch h
theorem Chosen.purgeAck : ∀ x0 x1, Chosen.Statement (.purgeAck x0 x1) :=
  fun _ _ h => nomatch h
theorem Chosen.queueTake : ∀ x0, Chosen.Statement (.queueTake x0) :=
  fun _ h => nomatch h
theorem Chosen.quantumExpiry : ∀ x0 x1, Chosen.Statement (.quantumExpiry x0 x1) :=
  fun _ _ h => nomatch h
theorem Chosen.slotRevocation : ∀ x0 x1, Chosen.Statement (.slotRevocation x0 x1) :=
  fun _ _ h => nomatch h
theorem Chosen.loadRequest : ∀ x0, Chosen.Statement (.loadRequest x0) :=
  fun _ h => nomatch h
theorem Chosen.switchRequest : ∀ x0, Chosen.Statement (.switchRequest x0) :=
  fun _ h => nomatch h
theorem Chosen.unstageRequest : ∀ x0, Chosen.Statement (.unstageRequest x0) :=
  fun _ h => nomatch h
theorem Chosen.versionRemoval : ∀ x0, Chosen.Statement (.versionRemoval x0) :=
  fun _ h => nomatch h
theorem Chosen.tableWalk : ∀ x0, Chosen.Statement (.tableWalk x0) :=
  fun _ h => nomatch h
theorem Chosen.pgfault : ∀ x0 x1, Chosen.Statement (.pgfault x0 x1) :=
  fun _ _ h => nomatch h
theorem Chosen.fetch : ∀ x0 x1 x2, Chosen.Statement (.fetch x0 x1 x2) :=
  fun _ _ _ h => nomatch h
theorem Chosen.tlbShootdown : ∀ x0, Chosen.Statement (.tlbShootdown x0) :=
  fun _ h => nomatch h
theorem Chosen.migr : ∀ x0 x1 x2 x3, Chosen.Statement (.migr x0 x1 x2 x3) :=
  fun _ _ _ _ h => nomatch h
theorem Chosen.stubRemoval : ∀ x0, Chosen.Statement (.stubRemoval x0) :=
  fun _ h => nomatch h
theorem Chosen.ntCombine : ∀ x0, Chosen.Statement (.ntCombine x0) :=
  fun _ h => nomatch h
theorem Chosen.clusterCacheEviction : ∀ x0, Chosen.Statement (.clusterCacheEviction x0) :=
  fun _ h => nomatch h
theorem Chosen.stashFill : ∀ x0 x1, Chosen.Statement (.stashFill x0 x1) :=
  fun _ _ h => nomatch h
theorem Chosen.l2DecTedSwitch : ∀ x0, Chosen.Statement (.l2DecTedSwitch x0) :=
  fun _ h => nomatch h
theorem Chosen.l2SecDedReturn : ∀ x0, Chosen.Statement (.l2SecDedReturn x0) :=
  fun _ h => nomatch h
theorem Chosen.patrolRead : ∀ x0 x1 x2, Chosen.Statement (.patrolRead x0 x1 x2) :=
  fun _ _ _ h => nomatch h
theorem Chosen.coreRetire : ∀ x0, Chosen.Statement (.coreRetire x0) :=
  fun _ h => nomatch h
theorem Chosen.linkRetry : ∀ x0 x1, Chosen.Statement (.linkRetry x0 x1) :=
  fun _ _ h => nomatch h
theorem Chosen.linkFailure : ∀ x0, Chosen.Statement (.linkFailure x0) :=
  fun _ h => nomatch h
theorem Chosen.flitForward : ∀ x0, Chosen.Statement (.flitForward x0) :=
  fun _ h => nomatch h
theorem Chosen.bringUp : ∀ x0 x1, Chosen.Statement (.bringUp x0 x1) :=
  fun _ _ h => nomatch h
theorem Chosen.powerThrottle : ∀ x0, Chosen.Statement (.powerThrottle x0) :=
  fun _ h => nomatch h
theorem Chosen.mgPwrcapWrite : ∀ x0, Chosen.Statement (.mgPwrcapWrite x0) :=
  fun _ h => nomatch h
theorem Chosen.mgPkgidWrite : ∀ x0, Chosen.Statement (.mgPkgidWrite x0) :=
  fun _ h => nomatch h
theorem Chosen.bstatClear : ∀ x0 x1, Chosen.Statement (.bstatClear x0 x1) :=
  fun _ _ h => nomatch h
theorem Chosen.debugHalt : ∀ x0, Chosen.Statement (.debugHalt x0) :=
  fun _ h => nomatch h
theorem Chosen.debugResume : ∀ x0, Chosen.Statement (.debugResume x0) :=
  fun _ h => nomatch h
theorem Chosen.debugStep : ∀ x0 x1, Chosen.Statement (.debugStep x0 x1) :=
  fun _ _ h => nomatch h
theorem Chosen.debugRead : ∀ x0 x1, Chosen.Statement (.debugRead x0 x1) :=
  fun _ _ h => nomatch h
theorem Chosen.dataInjection : ∀ x0 x1 x2 x3, Chosen.Statement (.dataInjection x0 x1 x2 x3) :=
  fun _ _ _ _ h => nomatch h
theorem Chosen.checkBitInjection : ∀ x0 x1 x2, Chosen.Statement (.checkBitInjection x0 x1 x2) :=
  fun _ _ _ h => nomatch h
theorem Chosen.instanceDestroy : ∀ x0, Chosen.Statement (.instanceDestroy x0) :=
  fun _ h => nomatch h
theorem Chosen.powerLoss : Chosen.Statement .powerLoss :=
  fun h => nomatch h
theorem Chosen.routeChange : ∀ x0 x1, Chosen.Statement (.routeChange x0 x1) :=
  fun _ _ h => nomatch h

/-- A legal chain names the page of its function. -/
theorem chainOk_page {i : Instr} (h : chainOk i = true) : pageNum (preOf i) = pageOf i := by
  simp only [chainOk, Bool.and_eq_true] at h
  have h1 := h.1.1.1.2
  cases hp : (preOf i).page <;> simp [hp] at h1
  · simp [pageNum, hp, h1]
  · simp [pageNum, hp, h1.2]

end Sys2Proof.Laws
end

