-- ==== Sys2Proof/Tests/Slice0.lean ====
section
/-! SUPPORT. Tests: the checks of well-formedness, a word of each base function, small steps with results worked out by hand, and
for each statement that has hypotheses, states and operands that meet them together. -/

open Sys2Proof Sys2Proof.Machine

namespace Sys2Proof.Tests

set_option Elab.async false

/-! ## States -/

/-- A machine whose control context runs with the full window, its registers all 0. -/
def w0 : State := { withProgram State.reset with core := { (withProgram State.reset).core with cur := 0 } }
def w0Act : Act := { inst := 1, vtag := 1, nw := 64, nv := 16, trig := { hdr := 0, t0 := 0, t1 := 0 } }
/-- w0 with another core, another context 0, another activation, another package. -/
def w0Core (f : Core → Core) : State := { w0 with core := f w0.core }
def w0Ctx (f : Ctx → Ctx) : State := w0Core (fun c => { c with ctxs := mapAt f 0 c.ctxs })
def w0Actf (f : Act → Act) : State := w0Core (fun c => { c with act := some (f w0Act) })
def w0Pkg (f : Package → Package) : State := { w0 with pkg := f w0.pkg }
/-- w0 with values in W[4], W[5], … -/
def w0W (xs : List Nat) : State := setWs 4 xs w0
theorem plain_w0 : w0.plain := by unfold State.plain; decide +kernel

/-! ## Ill-formed terms, one for each check, refused by it -/

theorem test_wf_five_prefix_words : chainOk (.ld { imms := [1, 2, 3, 4], page := some 0 } 4 5 1) = false := by decide +kernel
theorem test_wf_too_many_immediates : chainOk (.vecAddi { imms := [1, 2], page := some 3 } 1 0) = false ∧ chainOk (.aluAdd { imms := [1] } 4 5) = false := by decide +kernel
theorem test_wf_reg_not_taken : chainOk (.brcB { reg := some ⟨0, 0, 0⟩ } 4) = false := by decide +kernel
theorem test_wf_reg_high_bits : chainOk (.vecAdd { reg := some ⟨2, 0, 3⟩ } 1 2) = false ∧ chainOk (.xferMov { reg := some ⟨0, 0, 1⟩ } 4 5) = false ∧
    chainOk (.vecAdd { reg := some ⟨0, 0, 16⟩ } 1 2) = false ∧ chainOk (.vecLut { reg := some ⟨0, 0, 2⟩, page := some 2 } 1 2) = false := by decide +kernel
theorem test_wf_page : chainOk (.longRem {} 4 5 1) = false ∧ chainOk (.longRem { page := some 1 } 4 5 1) = false ∧ chainOk (.aluAdd { page := some 0 } 4 5) = false := by decide +kernel
theorem test_wf_forward : chainOk (.movi { fwd := some ⟨false, 1⟩ } 4 5) = false ∧ chainOk (.aluAdd { fwd := some ⟨false, 0⟩ } 4 5) = false ∧
    chainOk (.aluAdd { fwd := some ⟨true, 1⟩ } 4 5) = false := by decide +kernel
theorem test_wf_qualifier : chainOk (.aluAdd { qual := some ⟨0, 0, false, 0⟩ } 4 5) = false ∧ chainOk (.fpuFadd { qual := some ⟨1, 0, false, 12⟩ } 4 5) = false ∧
    chainOk (.fpuFadd { qual := some ⟨0, 0, false, 0⟩ } 4 5) = false ∧ chainOk (.ld { qual := some ⟨5, 0, false, 0⟩ } 4 5 1) = false ∧
    chainOk (.ld { qual := some ⟨1, 2, false, 0⟩ } 4 5 1) = false ∧ chainOk (.st { qual := some ⟨1, 3, false, 0⟩ } 4 5 1) = false ∧
    chainOk (.st { qual := some ⟨1, 1, true, 0⟩ } 4 5 1) = false ∧ chainOk (.ld { qual := some ⟨1, 0, false, 14⟩ } 4 5 1) = false := by decide +kernel
theorem test_wf_base_word : chainOk (.vecAdd {} 9 2) = false ∧ chainOk (.vecAdd {} 1 10) = false ∧ chainOk (.sysVtype 12 4) = false := by decide +kernel
theorem test_wf_events : eventOk (.mma 16384) = false ∧ eventOk (.ccopy 0 4) = false ∧ eventOk (.stashFill 0 11) = false ∧ eventOk (.slotRevocation 0 1024) = false ∧
    eventOk (.l2DecTedSwitch 4) = false ∧ eventOk (.migr 1 0 4 0) = false ∧ eventOk (.illegalInstruction ⟨0, 0, 0⟩) = false := by decide +kernel
theorem test_wf_kind : wellFormed (.mma 16384) = false ∧ wellFormed (.aluAdd { imms := [1] } 4 5) = false ∧ wellFormed (.mma 16383) = true := by decide +kernel

/-! ## Single steps, with results worked out by hand from the tables of the spec -/

/-- The state after an instruction; what stands in W[n] after it. -/
def after (i : Instr) (s : State) : State := match exec i s with | .next t => t | _ => s
def wAfter (i : Instr) (n : Nat) (s : State) : Nat := readLE (after i s).core.ls (wAddr s n) 8
theorem test_add_wraps : wAfter (.aluAdd {} 4 5) 4 (w0W [0xFFFFFFFFFFFFFFFF, 2]) = 1 := by decide +kernel
theorem test_sub_by_three_registers : wAfter (.aluSub { reg := some ⟨1, 0, 5⟩ } 4 4) 20 (w0W [3, 5]) = 0xFFFFFFFFFFFFFFFE := by decide +kernel
theorem test_mulh_is_signed : wAfter (.aluMulh {} 4 5) 4 (w0W [0xFFFFFFFFFFFFFFFF, 2]) = 0xFFFFFFFFFFFFFFFF ∧
    wAfter (.aluMulhn {} 4 5) 4 (w0W [0xFFFFFFFFFFFFFFFF, 2]) = 1 := by decide +kernel
theorem test_sar_fills_with_sign : wAfter (.aluSar {} 4 5) 4 (w0W [0x8000000000000000, 4]) = 0xF800000000000000 := by decide +kernel
theorem test_movi_reads_a_sign : wAfter (.movi {} 4 0x80) 4 w0 = 0xFFFFFFFFFFFFFF80 := by decide +kernel
theorem test_cmp_borrows : (ctx (after (.aluCmp {} 4 5) (w0W [1, 2]))).flg = 0x80C02 ∧ (ctx (after (.aluCmp {} 4 5) (w0W [2, 2]))).flg = 0x80C05 := by decide +kernel
theorem test_branch_goes_back : (ctx (after (.brcB {} 0xFE) w0)).pc = 0x3FFFFFFFFC ∧ (ctx (after (.brcEq {} 0x10) w0)).pc = 0x4000000002 := by decide +kernel
theorem test_call_links : wAfter (.brcCall {} 4) 12 w0 = 0x4000000002 ∧ (ctx (after (.brcCall {} 4) w0)).pc = 0x4000000008 := by decide +kernel
theorem test_brk_saves : readLE (after (.sysBrk 5) w0).core.ls 0x9000 8 = 9 ∧ readLE (after (.sysBrk 5) w0).core.ls 0x9008 8 = 5 ∧
    readLE (after (.sysBrk 5) w0).core.ls 0x9010 8 = 0x4000000000 ∧ (ctx (after (.sysBrk 5) w0)).pc = 0x4000008000 ∧ (ctx (after (.sysBrk 5) w0)).wp = 0x9000 := by decide +kernel
theorem test_load_extends_a_sign : wAfter (.ld { qual := some ⟨0, 0, false, 0⟩ } 4 5 0) 4 { w0W [0, 0x2000] with core := { (w0W [0, 0x2000]).core with
    ls := writeLE (w0W [0, 0x2000]).core.ls 0x2000 1 0x80 } } = 0xFFFFFFFFFFFFFF80 := by decide +kernel
theorem test_store_is_little_endian : memRead (after (.st {} 4 5 0) (w0W [0x1122, 0x2000])).core.ls 0x2000 = 0x22 ∧
    memRead (after (.st {} 4 5 0) (w0W [0x1122, 0x2000])).core.ls 0x2001 = 0x11 := by decide +kernel
theorem test_div_truncates : wAfter (.longDiv {} 4 5 0) 4 (w0W [0xFFFFFFFFFFFFFFF9, 2]) = 0xFFFFFFFFFFFFFFFD ∧
    wAfter (.longRem { page := some 2 } 4 5 0) 4 (w0W [0xFFFFFFFFFFFFFFF9, 2]) = 0xFFFFFFFFFFFFFFFF := by decide +kernel
theorem test_fadd_rounds_to_even : wAfter (.fpuFadd { qual := some ⟨0, 0, false, 12⟩ } 4 5) 4 (w0W [0x4B800000, 0x3F800000]) = 0x4B800000 := by decide +kernel
theorem test_wide_memory_is_canonical : (memWrite (memWrite [] 5 7) 5 0) = [] ∧ (memWrite (memWrite [] 5 7) 2 1).map (·.1) = [2, 5] := by decide +kernel

/-! ## Decoding: a word of each base function, from the opcode table of spec/ and, for the rows without a pattern, from R148, R150, R151, R153,
R154 and R160 -/

theorem test_decode_Sys1 :
  decode [0x0000] = .ok (.sysNop) 1 ∧
  decode [0x0010] = .ok (.sysEnd) 1 ∧
  decode [0x0020] = .ok (.sysEndP) 1 ∧
  decode [0x0030] = .ok (.sysAbort) 1 ∧
  decode [0x0043] = .ok (.sysBrk 3) 1 ∧
  decode [0x0053] = .ok (.sysSvc 3) 1 ∧
  decode [0x0060] = .ok (.sysRett) 1 ∧
  decode [0x0070] = .ok (.sysIdle) 1 ∧
  decode [0x0080] = .ok (.sysSplit) 1 ∧
  decode [0x0102] = .ok (.sysFence 2) 1 ∧
  decode [0x0112] = .ok (.sysFenceRel 2) 1 ∧
  decode [0x0122] = .ok (.sysFenceAcq 2) 1 := by decide +kernel

theorem test_decode_Sys2 :
  decode [0x0132] = .ok (.sysFenceDrain 2) 1 ∧
  decode [0x0140] = .ok (.sysFenceIbar) 1 ∧
  decode [0x02C0] = .ok (.sysVtype 12 0) 1 ∧
  decode [0x0322] = .ok (.sysRep {} 2 2) 1 := by decide +kernel

theorem test_decode_Alu1 :
  decode [0x1450] = .ok (.aluAdd {} 4 5) 1 ∧
  decode [0x1451] = .ok (.aluSub {} 4 5) 1 ∧
  decode [0x1452] = .ok (.aluAnd {} 4 5) 1 ∧
  decode [0x1453] = .ok (.aluOr {} 4 5) 1 ∧
  decode [0x1454] = .ok (.aluXor {} 4 5) 1 ∧
  decode [0x1455] = .ok (.aluShl {} 4 5) 1 ∧
  decode [0x1456] = .ok (.aluShr {} 4 5) 1 ∧
  decode [0x1457] = .ok (.aluSar {} 4 5) 1 ∧
  decode [0x1458] = .ok (.aluMul {} 4 5) 1 ∧
  decode [0x1459] = .ok (.aluMulh {} 4 5) 1 ∧
  decode [0x145A] = .ok (.aluMulhn {} 4 5) 1 ∧
  decode [0x145B] = .ok (.aluMin {} 4 5) 1 := by decide +kernel

theorem test_decode_Alu2 :
  decode [0x145C] = .ok (.aluMax {} 4 5) 1 ∧
  decode [0x145D] = .ok (.aluMinn {} 4 5) 1 ∧
  decode [0x145E] = .ok (.aluMaxn {} 4 5) 1 ∧
  decode [0x145F] = .ok (.aluCmp {} 4 5) 1 := by decide +kernel

theorem test_decode_Alui :
  decode [0x2406] = .ok (.aluiAddi {} 4 6) 1 ∧
  decode [0x2416] = .ok (.aluiAndi {} 4 6) 1 ∧
  decode [0x2426] = .ok (.aluiOri {} 4 6) 1 ∧
  decode [0x2436] = .ok (.aluiXori {} 4 6) 1 ∧
  decode [0x2446] = .ok (.aluiShli {} 4 6) 1 ∧
  decode [0x2456] = .ok (.aluiShri {} 4 6) 1 ∧
  decode [0x2466] = .ok (.aluiSari {} 4 6) 1 ∧
  decode [0x2476] = .ok (.aluiMuli {} 4 6) 1 ∧
  decode [0x2486] = .ok (.aluiCmpi {} 4 6) 1 ∧
  decode [0x2496] = .ok (.aluiMini {} 4 6) 1 ∧
  decode [0x24A6] = .ok (.aluiMaxi {} 4 6) 1 ∧
  decode [0x24B6] = .ok (.aluiLda {} 4 6) 1 := by decide +kernel

theorem test_decode_MovesOfImmediates :
  decode [0x3485] = .ok (.movi {} 4 0x85) 1 ∧
  decode [0x6485] = .ok (.ldap {} 4 0x85) 1 := by decide +kernel

theorem test_decode_Fpu1 :
  decode [0x4450] = .ok (.fpuFadd {} 4 5) 1 ∧
  decode [0x4451] = .ok (.fpuFsub {} 4 5) 1 ∧
  decode [0x4452] = .ok (.fpuFmul {} 4 5) 1 ∧
  decode [0xE003, 0x4453] = .ok (.fpuFma { reg := some ⟨0, 0, 3⟩ } 4 5) 2 ∧
  decode [0x4454] = .ok (.fpuFmin {} 4 5) 1 ∧
  decode [0x4455] = .ok (.fpuFmax {} 4 5) 1 ∧
  decode [0x4456] = .ok (.fpuFcmp {} 4 5) 1 ∧
  decode [0x4457] = .ok (.fpuFabs {} 4 5) 1 ∧
  decode [0x4458] = .ok (.fpuFneg {} 4 5) 1 ∧
  decode [0x4459] = .ok (.fpuFcvti {} 4 5) 1 ∧
  decode [0x445A] = .ok (.fpuFcvtf {} 4 5) 1 ∧
  decode [0xE008, 0x445B] = .ok (.fpuFcvt { reg := some ⟨0, 0, 8⟩ } 4 5) 2 := by decide +kernel

theorem test_decode_Fpu2 :
  decode [0x445C] = .ok (.fpuFclass {} 4 5) 1 ∧
  decode [0x445D] = .ok (.fpuFrnd {} 4 5) 1 ∧
  decode [0x445E] = .ok (.fpuFscl {} 4 5) 1 := by decide +kernel

theorem test_decode_Brc1 :
  decode [0x50FE] = .ok (.brcB {} 0xfe) 1 ∧
  decode [0x51FE] = .ok (.brcEq {} 0xfe) 1 ∧
  decode [0x52FE] = .ok (.brcNe {} 0xfe) 1 ∧
  decode [0x53FE] = .ok (.brcLt {} 0xfe) 1 ∧
  decode [0x54FE] = .ok (.brcGe {} 0xfe) 1 ∧
  decode [0x55FE] = .ok (.brcGt {} 0xfe) 1 ∧
  decode [0x56FE] = .ok (.brcLe {} 0xfe) 1 ∧
  decode [0x57FE] = .ok (.brcLo {} 0xfe) 1 ∧
  decode [0x58FE] = .ok (.brcHs {} 0xfe) 1 ∧
  decode [0x59FE] = .ok (.brcHi {} 0xfe) 1 ∧
  decode [0x5AFE] = .ok (.brcLs {} 0xfe) 1 ∧
  decode [0x5BFE] = .ok (.brcUn {} 0xfe) 1 := by decide +kernel

theorem test_decode_Brc2 :
  decode [0x5CFE] = .ok (.brcOr {} 0xfe) 1 ∧
  decode [0x5DFE] = .ok (.brcVs {} 0xfe) 1 ∧
  decode [0x5EFE] = .ok (.brcVc {} 0xfe) 1 ∧
  decode [0x5FFE] = .ok (.brcCall {} 0xfe) 1 := by decide +kernel

theorem test_decode_Xfer1 :
  decode [0x7450] = .ok (.xferMov {} 4 5) 1 ∧
  decode [0x7051] = .ok (.xferJr {} 5) 1 ∧
  decode [0x7052] = .ok (.xferCallr {} 5) 1 ∧
  decode [0x7003] = .ok (.xferRet {}) 1 ∧
  decode [0x7054] = .ok (.xferQcall {} 5) 1 ∧
  decode [0x7455] = .ok (.xferMfs {} 4 5) 1 ∧
  decode [0x7456] = .ok (.xferMts {} 4 5) 1 ∧
  decode [0x7457] = .ok (.xferStart {} 4 5) 1 ∧
  decode [0x7058] = .ok (.xferJoinh {} 5) 1 ∧
  decode [0x7059] = .ok (.xferCpl {} 5) 1 ∧
  decode [0x745A] = .ok (.xferClz {} 4 5) 1 ∧
  decode [0x745B] = .ok (.xferPopc {} 4 5) 1 := by decide +kernel

theorem test_decode_Xfer2 :
  decode [0x745C] = .ok (.xferBswap {} 4 5) 1 ∧
  decode [0x745D] = .ok (.xferTst {} 4 5) 1 ∧
  decode [0x705E] = .ok (.xferPurge {} 5) 1 ∧
  decode [0x745F] = .ok (.xferIinv {} 4 5) 1 := by decide +kernel

theorem test_decode_Accesses :
  decode [0x8452] = .ok (.ld {} 4 5 2) 1 ∧
  decode [0xE401, 0x8452] = .ok (.ldV { page := some 1 } 4 5 2) 2 ∧
  decode [0x9451] = .ok (.st {} 4 5 1) 1 ∧
  decode [0xE401, 0x9451] = .ok (.stV { page := some 1 } 4 5 1) 2 := by decide +kernel

theorem test_decode_Vec1 :
  decode [0xA120] = .ok (.vecAdd {} 1 2) 1 ∧
  decode [0xA121] = .ok (.vecSub {} 1 2) 1 ∧
  decode [0xA122] = .ok (.vecMul {} 1 2) 1 ∧
  decode [0xE003, 0xA123] = .ok (.vecFma { reg := some ⟨0, 0, 3⟩ } 1 2) 2 ∧
  decode [0xA124] = .ok (.vecMin {} 1 2) 1 ∧
  decode [0xA125] = .ok (.vecMax {} 1 2) 1 ∧
  decode [0xA126] = .ok (.vecAnd {} 1 2) 1 ∧
  decode [0xA127] = .ok (.vecOr {} 1 2) 1 ∧
  decode [0xA128] = .ok (.vecXor {} 1 2) 1 ∧
  decode [0xA129] = .ok (.vecShl {} 1 2) 1 ∧
  decode [0xA12A] = .ok (.vecShr {} 1 2) 1 ∧
  decode [0xA12B] = .ok (.vecSar {} 1 2) 1 := by decide +kernel

theorem test_decode_Vec2 :
  decode [0xA12C] = .ok (.vecAbs {} 1 2) 1 ∧
  decode [0xA12D] = .ok (.vecNeg {} 1 2) 1 ∧
  decode [0xA12E] = .ok (.vecMov {} 1 2) 1 ∧
  decode [0xA15F] = .ok (.vecBc {} 1 5) 1 ∧
  decode [0xE003, 0xE401, 0xA420] = .ok (.vecCeq { reg := some ⟨0, 0, 3⟩, page := some 1 } 4 2) 3 ∧
  decode [0xE003, 0xE401, 0xA421] = .ok (.vecClt { reg := some ⟨0, 0, 3⟩, page := some 1 } 4 2) 3 ∧
  decode [0xE003, 0xE401, 0xA422] = .ok (.vecCle { reg := some ⟨0, 0, 3⟩, page := some 1 } 4 2) 3 ∧
  decode [0xE006, 0xE401, 0xA123] = .ok (.vecSel { reg := some ⟨0, 0, 6⟩, page := some 1 } 1 2) 3 ∧
  decode [0xE401, 0xA424] = .ok (.vecRsum { page := some 1 } 4 2) 2 ∧
  decode [0xE401, 0xA425] = .ok (.vecRmax { page := some 1 } 4 2) 2 ∧
  decode [0xE401, 0xA426] = .ok (.vecRmin { page := some 1 } 4 2) 2 ∧
  decode [0xE003, 0xE401, 0xA127] = .ok (.vecPerm { reg := some ⟨0, 0, 3⟩, page := some 1 } 1 2) 3 := by decide +kernel

theorem test_decode_Vec3 :
  decode [0xE006, 0xE401, 0xA128] = .ok (.vecSld { reg := some ⟨0, 0, 6⟩, page := some 1 } 1 2) 3 ∧
  decode [0xE006, 0xE401, 0xA429] = .ok (.vecExt { reg := some ⟨0, 0, 6⟩, page := some 1 } 4 2) 3 ∧
  decode [0xE006, 0xE401, 0xA15A] = .ok (.vecIns { reg := some ⟨0, 0, 6⟩, page := some 1 } 1 5) 3 ∧
  decode [0xE003, 0xE401, 0xA42B] = .ok (.vecDot { reg := some ⟨0, 0, 3⟩, page := some 1 } 4 2) 3 ∧
  decode [0xE401, 0xA15C] = .ok (.vecIota { page := some 1 } 1 5) 2 ∧
  decode [0xE00C, 0xE402, 0xA120] = .ok (.vecCvt { reg := some ⟨0, 0, 12⟩, page := some 2 } 1 2) 3 ∧
  decode [0xE006, 0xE402, 0xA121] = .ok (.vecQnt { reg := some ⟨0, 0, 6⟩, page := some 2 } 1 2) 3 ∧
  decode [0xE006, 0xE402, 0xA122] = .ok (.vecDqnt { reg := some ⟨0, 0, 6⟩, page := some 2 } 1 2) 3 ∧
  decode [0xE402, 0xA123] = .ok (.vecPack { page := some 2 } 1 2) 2 ∧
  decode [0xE402, 0xA124] = .ok (.vecUnpk { page := some 2 } 1 2) 2 ∧
  decode [0xE402, 0xA125] = .ok (.vecLut { page := some 2 } 1 2) 2 ∧
  decode [0xE402, 0xA026] = .ok (.vecLdtb { page := some 2 } 2) 2 := by decide +kernel

theorem test_decode_Vec4 :
  decode [0xE402, 0xA127] = .ok (.vecRnd { page := some 2 } 1 2) 2 ∧
  decode [0xE403, 0xA160] = .ok (.vecAddi { page := some 3 } 1 6) 2 ∧
  decode [0xE403, 0xA161] = .ok (.vecMuli { page := some 3 } 1 6) 2 ∧
  decode [0xE403, 0xA162] = .ok (.vecMini { page := some 3 } 1 6) 2 ∧
  decode [0xE403, 0xA163] = .ok (.vecMaxi { page := some 3 } 1 6) 2 ∧
  decode [0xE003, 0xE403, 0xA4C4] = .ok (.vecCeqi { reg := some ⟨0, 0, 3⟩, page := some 3 } 4 12) 3 ∧
  decode [0xE003, 0xE403, 0xA4C5] = .ok (.vecClti { reg := some ⟨0, 0, 3⟩, page := some 3 } 4 12) 3 ∧
  decode [0xE403, 0xA166] = .ok (.vecBci { page := some 3 } 1 6) 2 ∧
  decode [0xE003, 0xE403, 0xA1C7] = .ok (.vecFmai { reg := some ⟨0, 0, 3⟩, page := some 3 } 1 12) 3 := by decide +kernel

theorem test_decode_Long1 :
  decode [0xB452] = .ok (.longDiv {} 4 5 2) 1 ∧
  decode [0xE401, 0xB452] = .ok (.longDivn { page := some 1 } 4 5 2) 2 ∧
  decode [0xE402, 0xB452] = .ok (.longRem { page := some 2 } 4 5 2) 2 ∧
  decode [0xE403, 0xB452] = .ok (.longRemn { page := some 3 } 4 5 2) 2 ∧
  decode [0xE404, 0xB452] = .ok (.longFdiv { page := some 4 } 4 5 2) 2 ∧
  decode [0xE405, 0xB452] = .ok (.longFsqrt { page := some 5 } 4 5 2) 2 ∧
  decode [0xE406, 0xB122] = .ok (.longVexp2 { page := some 6 } 1 2 2) 2 ∧
  decode [0xE407, 0xB122] = .ok (.longVrcp { page := some 7 } 1 2 2) 2 ∧
  decode [0xE408, 0xB122] = .ok (.longVrsq { page := some 8 } 1 2 2) 2 ∧
  decode [0xE409, 0xB122] = .ok (.longVlog2 { page := some 9 } 1 2 2) 2 ∧
  decode [0xE40A, 0xB450] = .ok (.longCwait { page := some 10 } 4 5) 2 ∧
  decode [0xE40B, 0xB452] = .ok (.longCread { page := some 11 } 4 5 2) 2 := by decide +kernel

theorem test_decode_Long2 :
  decode [0xE40C, 0xB452] = .ok (.longCtest { page := some 12 } 4 5 2) 2 ∧
  decode [0xE40D, 0xB450] = .ok (.longWpwait { page := some 13 } 4 5) 2 ∧
  decode [0xE40E, 0xB452] = .ok (.longSopen { page := some 14 } 4 5 2) 2 := by decide +kernel

theorem test_decode_Send :
  decode [0xC452] = .ok (.sendMsg {} 4 5 2) 1 ∧
  decode [0xE401, 0xC452] = .ok (.sendQmsg { page := some 1 } 4 5 2) 2 ∧
  decode [0xE402, 0xC452] = .ok (.sendItem { page := some 2 } 4 5 2) 2 ∧
  decode [0xE403, 0xC452] = .ok (.sendMpush { page := some 3 } 4 5 2) 2 ∧
  decode [0xE404, 0xC452] = .ok (.sendCpush { page := some 4 } 4 5 2) 2 ∧
  decode [0xE405, 0xC402] = .ok (.sendSpush { page := some 5 } 4 0 2) 2 ∧
  decode [0xE406, 0xC452] = .ok (.sendCadd { page := some 6 } 4 5 2) 2 ∧
  decode [0xE407, 0xC452] = .ok (.sendCaddr { page := some 7 } 4 5 2) 2 ∧
  decode [0xE408, 0xC452] = .ok (.sendArm { page := some 8 } 4 5 2) 2 ∧
  decode [0xE409, 0xC452] = .ok (.sendReply { page := some 9 } 4 5 2) 2 := by decide +kernel

theorem test_decode_Mem :
  decode [0xD450] = .ok (.memSmap {} 4 5) 1 ∧
  decode [0xD401] = .ok (.memSunmap {} 4) 1 ∧
  decode [0xD452] = .ok (.memSflush {} 4 5) 1 ∧
  decode [0xD453] = .ok (.memSinv {} 4 5) 1 ∧
  decode [0xD404] = .ok (.memSclose {} 4) 1 ∧
  decode [0xD455] = .ok (.memLsclr {} 4 5) 1 := by decide +kernel

/-! ## Encoding and steps -/

theorem test_wit_EncodeDecode : wellFormed (.ld { imms := [1, 0x234], reg := some ⟨1, 0, 0⟩, qual := some ⟨1, 3, false, 0⟩ } 4 5 1) = true := by decide +kernel
theorem test_wit_DecodedIsEncoding : decode [0x3405] = .ok (.movi {} 4 5) 1 := by decide +kernel

/-- A machine about to issue `movi w4, 5`, and one about to issue an unassigned word. -/
def wStep : State := withWords [0x3405, 0, 0, 0, 0, 0] State.reset
def wIll : State := withWords [0xD606, 0, 0, 0, 0, 0] State.reset
theorem test_wit_StepRunsDecoded : wStep.agenda = [] ∧ wStep.turns = [] ∧ wStep.pkg.powered = true ∧ wdogDue (countCycle wStep) = false ∧
    nextCtx (countCycle wStep) = some 0 ∧ wStep.core.gang = .alone ∧
    atDeadCode (takeTurn 0 (countCycle wStep)) = false ∧
    fetchChain (takeTurn 0 (countCycle wStep)) (asidOf (takeTurn 0 (countCycle wStep))) (start (takeTurn 0 (countCycle wStep))) 6 = ([0x3405], none) ∧
    chainPoison (takeTurn 0 (countCycle wStep)) (asidOf (takeTurn 0 (countCycle wStep))) (start (takeTurn 0 (countCycle wStep))) 1 = none ∧
    decode [0x3405] = .ok (.movi {} 4 5) 1 := by decide +kernel
theorem test_wit_StepRunsDecoded_ill : wIll.agenda = [] ∧ wIll.turns = [] ∧ wIll.pkg.powered = true ∧ wdogDue (countCycle wIll) = false ∧
    nextCtx (countCycle wIll) = some 0 ∧ wIll.core.gang = .alone ∧
    atDeadCode (takeTurn 0 (countCycle wIll)) = false ∧
    fetchChain (takeTurn 0 (countCycle wIll)) (asidOf (takeTurn 0 (countCycle wIll))) (start (takeTurn 0 (countCycle wIll))) 6 = ([0xD606], none) ∧
    chainPoison (takeTurn 0 (countCycle wIll)) (asidOf (takeTurn 0 (countCycle wIll))) (start (takeTurn 0 (countCycle wIll))) 1 = none ∧
    decode [0xD606] = .ill ⟨1, 0, 0xD606⟩ := by decide +kernel
/-- A machine whose next word lies in a poisoned granule. -/
def wBad : State := { wStep with pkg := { wStep.pkg with poison := [0x20000] } }
theorem test_wit_StepRunsDecoded_ue : wBad.agenda = [] ∧ wBad.turns = [] ∧ wBad.pkg.powered = true ∧ wdogDue (countCycle wBad) = false ∧
    nextCtx (countCycle wBad) = some 0 ∧ wBad.core.gang = .alone ∧
    atDeadCode (takeTurn 0 (countCycle wBad)) = false ∧
    fetchChain (takeTurn 0 (countCycle wBad)) (asidOf (takeTurn 0 (countCycle wBad))) (start (takeTurn 0 (countCycle wBad))) 6 = ([0x3405], none) ∧
    chainPoison (takeTurn 0 (countCycle wBad)) (asidOf (takeTurn 0 (countCycle wBad))) (start (takeTurn 0 (countCycle wBad))) 1 = some 0x100000 ∧
    redundant (takeTurn 0 (countCycle wBad)) = false ∧ asyncDue (takeTurn 0 (countCycle wBad)) = none := by decide +kernel
/-- A gang of two members at one word; the second one's w4 lies in a sector that is not filled. -/
def wLock : State :=
  { wStep with core := { wStep.core with gang := .coupled 3 5 }, others := [(1, { wStep.core with id := 1, gang := .coupled 3 5 })] }
def wLockStall : State :=
  { wLock with others := wLock.others.map (fun o => (o.1, { o.2 with wins := [some { base := 0x8000, len := 256, va := 0x4000001000 }, none, none, none] })) }
def lockNext (s : State) : State := match issueMembers exec 0 (.ok (.movi {} 4 5) [0x3405]) [0, 1] s with | .next v => v | _ => s
theorem test_wit_StepRunsDecoded_gang : wLock.agenda = [] ∧ wLock.turns = [] ∧ wLock.pkg.powered = true ∧ wdogDue (countCycle wLock) = false ∧
    nextCtx (countCycle wLock) = some 0 ∧ coupled wLock 0 = true ∧ gangMembers (countCycle wLock) = [0, 1] ∧ midWay (countCycle wLock) 0 = false ∧
    settleGang [0, 1] false (countCycle wLock) = countCycle wLock ∧
    fetch (takeTurn 0 (focusOn 0 (countCycle wLock))) = .ok (.movi {} 4 5) [0x3405] ∧ condOf (.ok (.movi {} 4 5) [0x3405]) = none ∧
    (∀ k ∈ [0, 1], stalledAt (countCycle wLock) (lockNext (countCycle wLock)) k = false) ∧
    [0, 1].map (fun k => readLE (coreOf (lockNext (countCycle wLock)) k).ls 0x8020 8) = [5, 5] := by decide +kernel
theorem test_wit_StepRunsDecoded_gangStall : nextCtx (countCycle wLockStall) = some 0 ∧ gangMembers (countCycle wLockStall) = [0, 1] ∧
    settleGang [0, 1] false (countCycle wLockStall) = countCycle wLockStall ∧
    fetch (takeTurn 0 (focusOn 0 (countCycle wLockStall))) = .ok (.movi {} 4 5) [0x3405] ∧
    [0, 1].filter (stalledAt (countCycle wLockStall) (lockNext (countCycle wLockStall))) = [1] := by decide +kernel
/-- A machine about to issue a chain of two words. -/
def wTwo : State := withWords [0xE105, 0x1441, 0, 0, 0, 0] State.reset
theorem test_wit_FetchReadsMemory : isPrefix 0xE105 = true ∧ isPrefix 0x1441 = false ∧
    (∀ j, j ≤ 1 → fetchable wTwo 1 (0x4000000000 + 2 * j) = true ∧ heldWord wTwo 1 (0x4000000000 + 2 * j) = none) ∧
    clusterRead wTwo (clusterOf wTwo.core.id) 1 0x4000000000 4 = some (wordBytes [0xE105, 0x1441]) := by decide +kernel
theorem test_wit_StepOrder : State.reset.agenda = [] ∧ State.reset.pkg.powered = true ∧ State.reset.turns = [] ∧
    wdogDue (countCycle State.reset) = false ∧ nextCtx (countCycle State.reset) = none := by decide +kernel
theorem test_wit_StepKeepsWf : State.reset.wf = true ∧ (match step State.reset with | .next t => decide (t = State.reset) | _ => false) = true := by decide +kernel

/-! ## Exceptions -/

theorem test_wit_TrapEntry : w0.wf = true ∧ (ctx w0).wp ≠ w0.core.twp ∧ trapBusy w0 = false := by decide +kernel
/-- The control context in the trap workspace; context 3 in it. -/
def wTrap : State := w0Ctx (fun x => { x with wp := 0x9000, inTrap := true })
def wHeld : State := w0Core (fun c => { c with ctxs := mapAt (fun x => { x with live := true, wp := 0x9000 }) 3 c.ctxs })
theorem test_wit_OtherTraps_double : wTrap.core.act = some w0Act ∧ w0Act.redm = 0 ∧ (ctx wTrap).wp = wTrap.core.twp := by decide +kernel
theorem test_wit_OtherTraps_held : wHeld.wf = true ∧ (ctx wHeld).wp ≠ wHeld.core.twp ∧ trapBusy wHeld = true := by decide +kernel
/-- The trap workspace with what a trap has saved. -/
def wRett : State := setWs 2 [0x4000000010, 0xC00, 0, 0x8000] wTrap
theorem test_wit_Returns_rett : wRett.plain ∧ (ctx wRett).wp = wRett.core.twp ∧ usable wRett [2, 3, 4, 5] [] ∧ flgLegal (regW wRett 3) = true ∧
    checkWp wRett (regW wRett 5) = .ok () := by unfold State.plain usable; decide +kernel
theorem test_wit_Returns_after : w0.plain ∧ (ctx w0).wp ≠ w0.core.twp ∧ trapBusy w0 = false ∧ flgLegal (ctx w0).flg.toNat = true ∧
    checkWp w0 (ctx w0).wp.toNat = .ok () ∧ usable (takeTrap 9 5 w0) [2, 3, 4, 5] [] := by unfold State.plain usable; decide +kernel
/-- Break capture is on, without and with a context between two parts of a clear. -/
def wCapture : State := w0Core (fun c => { c with breakCapture := true })
def wCaptureClear : State := setCtxAt 2 (fun x => { x with live := true, stage := 17 }) wCapture
theorem test_wit_BrkTraps : w0.core.breakCapture = false ∧ wCapture.core.breakCapture = true ∧ clearing wCapture.core = false ∧
    wCaptureClear.core.breakCapture = true ∧ clearing wCaptureClear.core = true := by decide +kernel
theorem test_wit_Traps : w0.plain ∧ (ctx w0).wp ≠ w0.core.twp ∧ 9 ≤ (9#4).toNat ∧ twoSrc (.longDiv {} 4 5 0) w0 {} 4 5 = .ok (0, 0) ∧
    oneSrcNoDst (.xferJr {} 4) (w0W [7]) {} 4 = .ok 7 ∧ (ctx (w0W [7])).longs = [] ∧
    oneSrc (.longCread {} 4 4 0) (w0W [0x5003]) {} 4 4 = .ok 0x5003 ∧ oneSrc (.ld {} 4 4 0) (w0W [0x1FFFC]) {} 4 4 = .ok 0x1FFFC ∧
    0x1FFFF < loadEa {} 0x1FFFC + etWidth (memEt {}) / 8 - 1 := by unfold State.plain; decide +kernel
/-- The hypotheses that the checks of accesses share, with x in W[5] as the address of a load into W[4]. -/
def accessBase (s : State) (x : Nat) : Prop := s.plain ∧ oneSrc (.ld {} 4 5 0) s {} 4 5 = .ok x ∧ memEt {} ≤ 13
/-- A stash window at 0x4000 with no valid sector, and an MZERO of 1,024 bytes at 0x4000 queued. -/
def oneWin : List (Option Win) := [some { base := 0x4000, len := 256, va := 0x4000000000 }, none, none, none]
def wWin : State := setWs 4 [0, 0x4000] (w0Core (fun c => { c with wins := oneWin }))
def mzeroCmd : Cmd := BitVec.ofNat 512 (1 + 0x4000 * 2 ^ 64)
def wMxu : State := setWs 4 [0, 0x4000] (w0Core (fun c => { c with mxu := { c.mxu with q := [{ cmd := mzeroCmd, scale := 0, ctx := 0, inst := 1, stamp := 0 }] } }))
theorem test_wit_Traps_access : (accessBase (w0W [0, 0x1FFFC]) 0x1FFFC ∧ 0x1FFFF < loadEa {} 0x1FFFC + 8 - 1) ∧
    (accessBase (w0W [0, 0x1F000]) 0x1F000 ∧ 0x1F000 ≤ loadEa {} 0x1F000 ∧ (ctx (w0W [0, 0x1F000])).priv = false) ∧
    (accessBase (w0W [0, 0x1EFFF]) 0x1EFFF ∧ loadEa {} 0x1EFFF < 0x1F000 ∧ loadEa {} 0x1EFFF % 8 ≠ 0) := by
  unfold accessBase State.plain; decide +kernel
theorem test_wit_Traps_waits : (accessBase wMxu 0x4000 ∧ loadEa {} 0x4000 < 0x1F000 ∧ loadEa {} 0x4000 % 8 = 0 ∧ mxuNames wMxu.core (loadEa {} 0x4000) 8 = true) ∧
    (accessBase wWin 0x4000 ∧ mxuNames wWin.core (loadEa {} 0x4000) 8 = false ∧ sectorValid wWin.core (loadEa {} 0x4000) = false) := by
  unfold accessBase State.plain; decide +kernel
def ntPre : Pre := { qual := some ⟨0, 0, true, 3⟩ }
theorem test_wit_Traps_nt : (w0W [0, 0x1EFF8]).plain ∧ oneSrc (.ld ntPre 4 5 0) (w0W [0, 0x1EFF8]) ntPre 4 5 = .ok 0x1EFF8 ∧ memEt ntPre ≤ 13 ∧
    usable (w0W [0, 0x1EFF8]) [4, 5] [] ∧ forwarded (.st ntPre 4 5 0) (w0W [0, 0x1EFF8]) (some 5) none = .ok none ∧ storeEa ntPre 0 0x1EFF8 + 8 ≤ 0x1F000 ∧
    storeEa ntPre 0 0x1EFF8 % 8 = 0 ∧ memNt ntPre = true ∧ (ctx (w0W [0, 0x1EFF8])).stage = 0 ∧
    mxuNames (w0W [0, 0x1EFF8]).core (storeEa ntPre 0 0x1EFF8) 8 = false ∧ winAt (w0W [0, 0x1EFF8]).core (storeEa ntPre 0 0x1EFF8) = none := by
  unfold State.plain usable; decide +kernel
/-- An activation with two pending causes; the same with the control context in trap handling; the same waiting for a counter. -/
def twoCauses : List Cause := [⟨16, 1, false⟩, ⟨12, 7, false⟩]
def wAsync : State := w0Actf (fun a => { a with pending := twoCauses })
def wAsyncTrap : State := { wAsync with core := { wAsync.core with ctxs := wTrap.core.ctxs } }
theorem test_wit_AsyncTraps_causes : wAsync.core.cur = 0 ∧ (ctx wAsync).inTrap = false ∧ (ctx wAsync).stage = 0 ∧
    wAsync.core.act = some { w0Act with pending := twoCauses } ∧ (⟨12, 7, false⟩ : Cause) ∈ twoCauses ∧
    (∀ d ∈ twoCauses, 12 < d.code ∨ d = ⟨12, 7, false⟩) ∧ wAsyncTrap.plain ∧ (ctx wAsyncTrap).inTrap = true := by unfold State.plain; decide +kernel
/-- The same while another context stands in the trap workspace. -/
def wAsyncHeld : State := { wAsync with core := { wAsync.core with ctxs := wHeld.core.ctxs } }
theorem test_wit_AsyncTraps_held : wAsyncHeld.core.cur = 0 ∧ (ctx wAsyncHeld).inTrap = false ∧ (ctx wAsyncHeld).stage = 0 ∧
    wAsyncHeld.core.act = some { w0Act with pending := twoCauses } ∧ trapBusy wAsyncHeld = true ∧ (ctx wAsyncHeld).wp ≠ wAsyncHeld.core.twp ∧
    trapBusy wAsync = false := by decide +kernel
def wCwait : State := { wAsync with core := { wAsync.core with
  act := some { w0Act with pending := [⟨12, 7, false⟩] }
  ctxs := mapAt (fun x => { x with wait := .cwait 0x5000 3 }) 0 w0.core.ctxs } }
theorem test_wit_AsyncTraps_wait : wCwait.core.halted = false ∧ (ctxAt wCwait 0).live = true ∧ (ctxAt wCwait 0).wait = .cwait 0x5000 3 ∧
    (ctxAt wCwait 0).inTrap = false ∧ (ctxAt wCwait 0).stage = 0 ∧ wCwait.core.act = some { w0Act with pending := [⟨12, 7, false⟩] } := by decide +kernel
def wDog (n : Nat) (once : Bool) : State := w0Actf (fun a => { a with actlim := 9, wdogCount := n, wdogOnce := once })
theorem test_wit_AsyncTraps_watchdog : redundant (wDog 9 false) = false ∧ (wDog 9 false).core.act = some { w0Act with actlim := 9, wdogCount := 9 } ∧
    (wDog 9 false).core.halted = false ∧ w0Act.st = .running ∧ (ctxAt (wDog 9 false) 0).inTrap = false ∧
    (wDog 9 true).core.act = some { w0Act with actlim := 9, wdogCount := 9, wdogOnce := true } ∧
    (wDog 8 false).core.act = some { w0Act with actlim := 9, wdogCount := 8 } := by decide +kernel

/-! ## Operands, integers, control flow -/

theorem test_wit_RegistersAreMemory : Memory.wf w0.core.ls = true ∧ (ctx w0).longs = [] ∧ (ctxAt w0 3).longs = [] ∧ (ctxAt w0 0).wp.toNat + 8 * 2 = wAddr w0 2 := by decide +kernel
def rPre : Pre := { reg := some ⟨1, 2, 7⟩ }
theorem test_wit_OperandForms_window : (windowOf (w0Actf (fun a => { a with nw := 16, nv := 2 }))).1 ≤ wA rPre 5 ∧
    wB {} 5 < (windowOf (w0Actf (fun a => { a with nw := 16, nv := 2 }))).1 ∧ (windowOf (w0Actf (fun a => { a with nw := 16, nv := 2 }))).2 ≤ vA w0 {} 3 ∧
    (∀ n ∈ [1, 63], n < (windowOf w0).1) ∧ (∀ n ∈ [15], n < (windowOf w0).2) ∧ w0.core.wins.all (· == none) = true := by decide +kernel
theorem test_wit_OperandForms : (preOf (.aluAdd {} 4 5)).fwd = none ∧ usable w0 [4, 5] [] ∧ reads w0 [5] [] = .ok () ∧
    names w0 [4 + 16, 5 + 32, 7] [] = .ok () ∧ reads w0 [5 + 32, 7] [] = .ok () ∧ usable w0 [5 + 32, 7] [] := by unfold usable; decide +kernel
/-- Item n of a stream stage with exports 0 and 2 at distances up to 3, the buffer entry of item 4 filled. -/
def stage3 : Stage := { strm := 9, group := [0, 1], k := 3, type := 5, exports := [0, 2], defaults := [70, 72] }
def wItem (n : Nat) (e : FwdState) : State := w0Core (fun c => { c with
  act := some { w0Act with strm := 9, item := n, stage := some stage3 }
  fwd := mapAt (fun _ => e) 4 c.fwd })
def fPre : Pre := { fwd := some ⟨false, 2⟩ }
theorem test_wit_OperandForms_forward : (preOf (.aluAdd fPre 4 2)).fwd = some ⟨false, 2⟩ ∧ w0Act.strm = 0xFFFF ∧ w0.core.act = some w0Act ∧
    stage3.exports.findIdx? (· == 2) = some 1 ∧ (2#4).toNat ≤ stage3.k ∧
    (wItem 1 .empty).core.act = some { w0Act with strm := 9, item := 1, stage := some stage3 } ∧
    (wItem 6 .empty).core.fwd.getD ((6 - 2) % 32) .empty = .empty ∧
    (wItem 6 (.valid 4 9 [5, 6])).core.fwd.getD ((6 - 2) % 32) .empty = .valid 4 9 [5, 6] ∧
    (wItem 6 (.poison 4 9)).core.fwd.getD ((6 - 2) % 32) .empty = .poison 4 9 := by decide +kernel
theorem test_wit_AluResults : w0.plain ∧ twoSrc (.aluAdd {} 4 5) w0 {} 4 5 = .ok ((0#64).toNat, (0#64).toNat) ∧
    twoSrcNoDst (.aluCmp {} 4 5) w0 {} 4 5 = .ok ((0#64).toNat, (0#64).toNat) ∧ twoSrcNoDst (.xferTst {} 4 5) w0 {} 4 5 = .ok ((0#64).toNat, (0#64).toNat) ∧
    usable w0 [4] [] ∧ (0#64).toNat = regW w0 4 ∧ (5#64).toNat = immS64 {} 4 5 ∧ oneSrc (.xferMov {} 4 5) w0 {} 4 5 = .ok (0#64).toNat ∧
    names w0 [4] [] = .ok () := by unfold State.plain usable; decide +kernel
theorem test_wit_ControlFlow : names w0 [12, 13] [] = .ok () ∧ oneSrcNoDst (.xferJr {} 4) (w0W [8]) {} 4 = .ok 8 ∧ usable w0 [12] [] ∧ regW w0 12 % 2 = 0 := by
  unfold usable; decide +kernel
def wEntries : State := w0Pkg (fun k => { k with insts := k.insts.map (fun x => (x.1, { x.2 with
  versions := x.2.versions.map (fun v => { v with entries := [0x4000000100, 0x4000000200] }) })) })
theorem test_wit_ControlFlow_qcall : wEntries.plain ∧ oneSrcNoDst (.xferQcall {} 4) wEntries {} 4 = .ok 0 ∧ names wEntries [12] [] = .ok () ∧
    (newestVersion wEntries).isSome = true ∧ (newestVersion wEntries).map (fun v => v.entries.length) = some 2 := by unfold State.plain; decide +kernel
/-- Memory words that a replay can skip: three base words. -/
def wRep (n : Nat) : State := setW 15 n { w0 with pkg := (withWords [0x0031, 0x1440, 0x1441, 0, 0, 0] State.reset).pkg }
theorem test_wit_Bellows_rep : (wRep 3).plain ∧ usable (wRep 3) [15] [] ∧ regW (wRep 3) 15 = 3 ∧ regW (wRep 0) 15 = 0 ∧ (wRep 0).plain ∧
    skipChains (wRep 3) (asidOf (wRep 3)) ((1#4).toNat + 1) (nextPc {} (wRep 3)) = .ok 0x4000000006 ∧
    nextPc {} (wRep 3) / 2 ^ 17 = (0x4000000006 - 2) / 2 ^ 17 := by unfold State.plain usable; decide +kernel
/-- In the second and last instruction of a replay with count n. -/
def wPass (idx n : Nat) : State := w0Ctx (fun x => { x with repst := repOf 0x40 1 2 3 true true idx n, pc := 0x4000000042 })
theorem test_wit_Bellows_pass : (wPass 0 5).wf = true ∧ asyncDue (wPass 0 5) = none ∧ (ctx (wPass 0 5)).longs = [] ∧ repActive (ctx (wPass 0 5)).repst.toNat = true ∧
    repCsrc (ctx (wPass 0 5)).repst.toNat = true ∧ repIdx (ctx (wPass 0 5)).repst.toNat < repLen (ctx (wPass 0 5)).repst.toNat ∧
    repLen (ctx (wPass 1 5)).repst.toNat ≤ repIdx (ctx (wPass 1 5)).repst.toNat ∧ 1 < repIcount (ctx (wPass 1 5)).repst.toNat ∧
    repIcount (ctx (wPass 1 1)).repst.toNat = 1 := by decide +kernel

/-! ## System registers, floating point, long results -/

theorem test_wit_SystemReads : names w0 [4] [] = .ok () ∧ redundant w0 = false ∧ wB {} 5 = 5 ∧ wB {} 6 = 6 ∧ 28 ≤ wB { reg := some ⟨0, 1, 0⟩ } 12 := by decide +kernel
/-- A primary and a secondary in PAIR mode, the primary with ACT read once. -/
def w0Pair (rplc : Nat) : State := { w0Actf (fun a => { a with redm := 1, rplc := rplc, group := [0, 1] }) with
  others := [(1, { id := 1, ctxs := mapAt (fun x => { x with leadLog := [33] }) 0 (List.replicate 11 {}) })] }
/-- The secondary's own view: core 1 is focal, the primary is core 0. -/
def wSecond (log : List Nat) : State := w0Core (fun c => { c with id := 1, act := some { w0Act with redm := 1, rplc := 1, group := [0, 1] } })
  |> fun s => { s with others := [(0, { id := 0, ctxs := mapAt (fun x => { x with leadLog := log }) 0 (List.replicate 11 {}) })] }
theorem test_wit_SystemReads_leader : (w0Pair 0).plain ∧ (w0Pair 0).core.act = some { w0Act with redm := 1, rplc := 0, group := [0, 1] } ∧ wB {} 8 = 8 ∧
    (wSecond [33]).plain ∧ (wSecond [33]).core.act = some { w0Act with redm := 1, rplc := 1, group := [0, 1] } ∧
    ((coreOf (wSecond [33]) 0).ctxs.getD 0 {}).leadLog[(ctx (wSecond [33])).leadPos]? = some 33 ∧
    ((coreOf (wSecond []) 0).ctxs.getD 0 {}).leadLog[(ctx (wSecond [])).leadPos]? = none ∧ names (wSecond []) [4] [] = .ok () := by unfold State.plain; decide +kernel
theorem test_wit_MtsFlg : usable (w0W [0x45C1F, 0x51C1F, 0x9000]) [4, 5, 6] [] ∧ wB {} 2 = 2 ∧ (0x45C1F#64).toNat = regW (w0W [0x45C1F]) 4 ∧
    ((0x45C1F#64).extractLsb' 16 3).toNat ≤ 4 ∧ (0x45C1F#64).extractLsb' 12 4 ≠ 1 ∧ ((0x45C1F#64).extractLsb' 12 4).toNat ≤ 8 ∧
    5 ≤ ((0x51C1F#64 <<< 0).extractLsb' 16 3).toNat := by unfold usable; decide +kernel
theorem test_wit_SystemWrites : (w0W [0x9000]).plain ∧ usable (w0W [0x9000]) [4] [] ∧ (0x9000#64).toNat = regW (w0W [0x9000]) 4 ∧ checkWp (w0W [0x9000]) 0x9000 = .ok () ∧
    0x9000 % 2 = 0 ∧ regW (w0W [0x9001]) 4 = 0x9001 ∧ regW (w0W [2]) 4 = 2 ∧ wB { reg := some ⟨0, 1, 0⟩ } 8 = 24 ∧ wB { reg := some ⟨0, 1, 0⟩ } 7 = 23 := by
  unfold State.plain usable; decide +kernel
theorem test_wit_SystemWrites_wp : windowOf w0 = (64, 16) ∧ 0x1F000 < 0x1F000 - 1500 + 512 + 64 * 16 ∧ 0x1EA00 + 512 + 64 * 16 ≤ 0x1F000 := by decide +kernel
/-- Floating-point operands: 0, 1 and the quotient of 0 by 0 with traps on. -/
def wFp : State := setWs 4 [0, 0x3FF0000000000000] (w0Ctx (fun x => { x with flg := 0x180C00 }))
def q12 : Pre := { reg := some ⟨0, 0, 12⟩, qual := some ⟨0, 0, false, 8⟩ }
theorem test_wit_FpuResults : (w0W [0, 0]).plain ∧ twoSrc (.fpuFadd {} 4 5) w0 {} 4 5 = .ok (0, 0) ∧ flgFPTE w0 = false ∧ oneSrc (.fpuFcvti {} 4 5) w0 {} 4 5 = .ok 0 ∧
    q12.reg.isSome = true ∧ 8 ≤ cNum q12 ∧ cNum q12 ≤ 13 ∧ oneSrc (.fpuFcvt q12 4 5) w0 q12 4 5 = .ok 0 ∧ usable w0 [wA rPre 4, wB rPre 5, cNum rPre] [] ∧
    forwarded (.fpuFma rPre 4 5) w0 (some (wB rPre 5)) (some (cNum rPre)) = .ok none ∧ twoSrcNoDst (.fpuFcmp {} 4 5) w0 {} 4 5 = .ok (0, 0) := by
  unfold State.plain usable; decide +kernel
def infW : State := setWs 4 [0x7FF0000000000000, 0xFFF0000000000000] (w0Ctx (fun x => { x with flg := 0x180C00 }))
theorem test_wit_FpuResults_trap : infW.plain ∧ twoSrc (.fpuFadd {} 4 5) infW {} 4 5 = .ok (0x7FF0000000000000, 0xFFF0000000000000) ∧ flgFPTE infW = true ∧
    bit (fadd (fmtOf (fpEt {})) (fpMode {} infW) (flgSAT infW) (fpArg {} 0x7FF0000000000000) (fpArg {} 0xFFF0000000000000)).st 0 = true := by
  unfold State.plain; decide +kernel
theorem test_wit_RoundingIsExact : (fdec (fmtOf 10) 0x3C00).isNan = false ∧ (fdec (fmtOf 10) 0x7E01).isNan = true ∧ 0x7E01 < 2 ^ (fmtOf 10).width := by decide +kernel
theorem test_wit_LongResults : twoSrc (.longDiv {} 4 5 3) (w0W [7, 2]) {} 4 5 = .ok ((7#64).toNat, (2#64).toNat) ∧ (2#64) ≠ 0 ∧ (w0W [7, 2]).plain ∧
    twoSrc (.longFdiv {} 4 5 3) w0 {} 4 5 = .ok (0, 0) ∧ oneSrc (.longFsqrt {} 4 5 3) w0 {} 4 5 = .ok 0 := by unfold State.plain; decide +kernel
def lPre : Pre := { page := some 6, qual := some ⟨0, 0, false, 12⟩ }
theorem test_wit_LongResults_vec : checkType (.longVexp2 lPre 3 2 1) w0 = .ok () ∧ vecReady w0 [] [vA w0 lPre 3, vB w0 lPre 2] [] [vB w0 lPre 2] := by unfold vecReady; decide +kernel
/-- One outstanding long result: a register, or flags. -/
def wLong (n : Nat) (f : Option (BitVec 5)) : State := w0Ctx (fun x => { x with longs := [⟨0x8010, [1, 2, 3, 4, 5, 6, 7, 8], f, n, false⟩] })
theorem test_wit_LongWindows : (wLong 2 none).wf = true ∧ asyncDue (wLong 2 none) = none ∧ repActive (ctx (wLong 2 none)).repst.toNat = false ∧
    (ctx (wLong 0 (some 3))).longs = [⟨0x8010, [1, 2, 3, 4, 5, 6, 7, 8], some 3, 0, false⟩] ∧ (ctx (wLong 0 none)).stage = 0 := by decide +kernel

/-! ## Vectors -/

def vPre : Pre := { reg := some ⟨0, 1, 2⟩, qual := some ⟨0, 0, false, 10⟩ }
theorem test_wit_VecLanes : (w0W []).plain ∧ vPre.fwd = none ∧ vPre.reg.isSome = true ∧ checkType (.vecAdd vPre 1 2) w0 = .ok () ∧
    vecReady w0 [] [vA w0 vPre 1, vB w0 vPre 2, vC w0 vPre] [] [vB w0 vPre 2, vC w0 vPre] ∧ flgFPTE w0 = false ∧
    checkType (.vecFma vPre 1 2) w0 = .ok () ∧ checkType (.vecFmai { vPre with page := some 3 } 1 2) w0 = .ok () ∧
    checkType (.vecIota { vPre with page := some 1 } 1 2) w0 = .ok () ∧ vecReady w0 [wB vPre 2] [vA w0 vPre 1] [wB vPre 2] [] := by
  unfold State.plain vecReady; decide +kernel
/-- Registers V[1] and V[2] with the infinities of f64 in their first lanes, traps on. -/
def wInfV : State := setV 1 (bytesLE 0x7FF0000000000000 8 ++ List.replicate 56 0) (setV 2 (bytesLE 0xFFF0000000000000 8 ++ List.replicate 56 0)
  (w0Ctx (fun x => { x with flg := 0x180D00 })))
theorem test_wit_VecLanes_trap : wInfV.plain ∧ checkType (.vecAdd {} 1 2) wInfV = .ok () ∧ vecReady wInfV [] [1, 1, 2] [] [1, 2] ∧ flgFPTE wInfV = true ∧
    bit (statusOf (List.zipWith (laneAdd (vecEt {} wInfV) (rnd {} wInfV)) (regLanes (vecEt {} wInfV) wInfV 1) (regLanes (vecEt {} wInfV) wInfV 2))).1 0 = true := by
  unfold State.plain vecReady; decide +kernel
theorem test_wit_VecMoves : checkType (.vecSel { vPre with page := some 1 } 1 2) w0 = .ok () ∧
    vecReady w0 [cNum vPre] [vA w0 vPre 1, vB w0 vPre 2] [cNum vPre] [vA w0 vPre 1, vB w0 vPre 2] ∧
    vecReady w0 [] [1, 2] [] [2] ∧ vecReady w0 [wB vPre 2, cNum vPre] [1] [wB vPre 2, cNum vPre] [1] ∧ vecReady w0 [] [1] [] [] := by unfold vecReady; decide +kernel
theorem test_wit_VecToW : checkType (.vecCeq { vPre with page := some 1 } 1 2) w0 = .ok () ∧
    vecReady w0 [wA vPre 1] [vB w0 vPre 2, vC w0 vPre] [] [vB w0 vPre 2, vC w0 vPre] ∧
    vecReady w0 [wA vPre 1, cNum vPre] [vB w0 vPre 2] [cNum vPre] [vB w0 vPre 2] ∧ checkType (.vecDot { vPre with page := some 1 } 1 2) w0 = .ok () ∧
    vecReady w0 [1, 2] [vB w0 vPre 2, vC w0 vPre] [1, 2] [vB w0 vPre 2, vC w0 vPre] ∧ vecEt vPre w0 = 10 ∧ vecEt { vPre with qual := some ⟨0, 0, false, 4⟩ } w0 < 8 ∧
    checkType (.vecDot { vPre with qual := some ⟨0, 0, false, 4⟩ } 1 2) w0 = .ok () := by unfold vecReady; decide +kernel
/-- CVT from i8, part 1, into f32; blocks of e4m3 and i8. -/
def cvtPre : Pre := { reg := some ⟨0, 0, 16⟩, qual := some ⟨0, 0, false, 12⟩ }
def qntPre : Pre := { reg := some ⟨0, 0, 5⟩, qual := some ⟨0, 0, false, 8⟩ }
theorem test_wit_VecConvert : checkType (.vecCvt cvtPre 1 2) w0 = .ok () ∧ cNum cvtPre % 16 < 14 ∧ cNum cvtPre / 16 * min (etBytes 12) (etBytes 0) < max (etBytes 12) (etBytes 0) ∧
    vecReady w0 [] [1, 2] [] [2] ∧ vecEt cvtPre w0 = 12 ∧ checkType (.vecQnt qntPre 1 2) w0 = .ok () ∧
    vecReady w0 [5] [1, 2, 3] [5] [1, 2, 3] ∧ checkType (.vecDqnt qntPre 1 3) w0 = .ok () ∧ vecReady w0 [5] [1, 2, 3] [5] [3] ∧
    vecReady w0 [] ([1, 2, 3, 4] ++ [5, 6, 7, 8]) [] [5, 6, 7, 8] ∧ flgPL w0 = 8 ∧ vecReady w0 [] [2] [] [2] ∧ lutQueued w0.core = false := by
  unfold vecReady; decide +kernel
theorem test_wit_IntegerLanes : (List.replicate 256 (5#8)).length = 256 := by decide +kernel

/-! ## Memory -/

/-- A window over local store 0x4000 to 0x40FF with all its sectors valid; W[5] is an address. -/
def wVal (t : List (Nat × Nat)) (x : Nat) (ws : List Nat := []) : State := setWs 5 (x :: ws) (w0Core (fun c => { c with
  wins := [some { base := 0x4000, len := 256, va := 0x4000000000, valid := [0, 1, 2, 3], tagged := t }, none, none, none] }))
def ordPre (o sc : Nat) (nt : Bool := false) : Pre := { qual := some ⟨BitVec.ofNat 3 sc, BitVec.ofNat 2 o, nt, 3⟩ }
theorem test_wit_Loads : (w0W [0, 0x1EFF8]).plain ∧ memEt {} ≤ 13 ∧ oneSrc (.ld {} 4 5 0) (w0W [0, 0x1EFF8]) {} 4 5 = .ok 0x1EFF8 ∧ loadEa {} 0x1EFF8 + 8 ≤ 0x1F000 ∧
    reachable (w0W [0, 0x1EFF8]) 0x1EFF8 8 ∧ readable (w0W [0, 0x1EFF8]) 0x1EFF8 8 = .ok () ∧ asksHome {} 0x1EFF8 (w0W [0, 0x1EFF8]) = false ∧ memOrder {} ≠ 3 ∧
    reachable (wVal [] 0x4000) 0x4000 8 ∧ asksHome (ordPre 3 2) 0x4000 (wVal [] 0x4000) = true ∧ asksHome (ordPre 3 0) 0x4000 (wVal [] 0x4000) = false ∧
    memOrder (ordPre 3 0) = 3 ∧ (wVal [] 0x4000).plain ∧ oneSrc (.ld (ordPre 3 2) 4 5 0) (wVal [] 0x4000) (ordPre 3 2) 4 5 = .ok 0x4000 := by
  unfold State.plain reachable; decide +kernel
theorem test_wit_Loads_vec : names (w0W [0, 0x1EFC0]) [wB {} 5] [vA (w0W [0, 0x1EFC0]) {} 3] = .ok () ∧ reads (w0W [0, 0x1EFC0]) [wB {} 5] [] = .ok () ∧
    forwarded (.ldV {} 3 5 0) (w0W [0, 0x1EFC0]) (some (wB {} 5)) none = .ok none ∧ reachable (w0W [0, 0x1EFC0]) 0x1EFC0 64 ∧
    readable (w0W [0, 0x1EFC0]) 0x1EFC0 64 = .ok () := by unfold reachable; decide +kernel
def wPairOf (s : State) : State := { s with core := { s.core with act := s.core.act.map (fun a => { a with redm := 1, group := [0, 1] }) } }
theorem test_wit_Stores : usable (w0W [7, 0x1EFF8]) [4, 5] [] ∧ forwarded (.st {} 4 5 0) (w0W [7, 0x1EFF8]) (some 5) none = .ok none ∧ storeEa {} 0 0x1EFF8 = 0x1EFF8 ∧
    reachable (w0W [7, 0x1EFF8]) 0x1EFF8 8 ∧ winAt (w0W [7, 0x1EFF8]).core 0x1EFF8 = none ∧ (ctx (w0W [7, 0x1EFF8])).stage = 0 ∧ memNt {} = false ∧
    (wPairOf (w0W [7, 0x1EFF8])).plain ∧ redundant (wPairOf (w0W [7, 0x1EFF8])) = true ∧ usable (wPairOf (w0W [7, 0x1EFF8])) [4, 5] [] ∧
    reachable (wVal [] 0x4008) 0x4008 8 ∧ writableRange (wVal [] 0x4008) 1 (0x4000000000 + 8) 1 = true ∧ usable (wVal [] 0x4000) [5] [3] := by
  unfold State.plain usable reachable; decide +kernel
theorem test_wit_Stores_ordered : (wVal [] 0x4000).plain ∧ usable (wVal [] 0x4000) [4, 5] [] ∧ 0x4000 % 8 = 0 ∧ mxuNames (wVal [] 0x4000).core 0x4000 8 = false ∧
    atCommit (wVal [] 0x4000) ∧ memNt (ordPre 0 0 true) = true ∧ heldSize (heldNow (wVal [] 0x4000)) ≤ 254 ∧ (wVal [] 0x4000).core.act.isSome = true ∧
    (winAt (wVal [] 0x4000).core 0x4000).isSome = true ∧ sectorValid (wVal [] 0x4000).core 0x4000 = true ∧ memOrder (ordPre 2 4) = 2 ∧
    effScope (ordPre 2 4) 0x4000 (wVal [] 0x4000) = 4 ∧ effScope (ordPre 1 2) 0x4000 (wVal [] 0x4000) = 2 ∧ awayOpen (wVal [] 0x4000) = false := by
  unfold State.plain usable atCommit begins; decide +kernel
theorem test_wit_StashInstructions : memOperands (.memSmap {} 4 5) (w0W [1 + 256 * 0x40 + 2 ^ 24 * 0, 256 * 0x40000000]) {} 4 5 = .ok (1 + 256 * 0x40 + 2 ^ 24 * (1 - 1), 256 * 0x40000000) ∧
    256 * 0x40 + 256 * 1 ≤ 0x1F000 ∧ meetsWin w0.core (256 * 0x40) (256 * 1) = false ∧ mappedTotal w0.core + 256 * 1 ≤ 0x10000 ∧ meetsWindow w0 0x4000 256 = false ∧
    mxuNames w0.core 0x4000 256 = false ∧ copyNames w0.core 0x4000 256 = false ∧ atCommit (wVal [] 0) ∧ usable (wVal [] 0) [4] [] ∧ regW (wVal [] 0) 4 = 0 ∧
    memOperands (.memSflush {} 5 6) (wVal [(0x4001, 0)] 0x4000 [64]) {} 5 6 = .ok (0x4000, 64) ∧ 0x4000 + 64 ≤ 0x1F000 ∧ atCommit (wVal [(0x4001, 0)] 0x4000) ∧
    memOperands (.memLsclr {} 5 6) (w0W [0, 0x1EF80, 128]) {} 5 6 = .ok (0x1EF80, 128) ∧ 0x1EF80 + 128 ≤ 0x1F000 ∧ meetsWin (w0W []).core 0x1EF80 128 = false ∧
    memOperands (.memLsclr {} 5 6) (w0W [0, 0x1EF88, 64]) {} 5 6 = .ok (0x1EF88, 64) := by
  unfold usable atCommit begins; decide +kernel
theorem test_wit_SysWords_fences : w0.plain ∧ atCommit w0 ∧ (3#4).toNat ≤ 4 ∧ (ctx (w0Ctx (fun x => { x with stage := 2 }))).stage = 2 ∧
    awayOpen (w0Ctx (fun x => { x with stage := 2 })) = false ∧ ntOpen 4 w0 = false ∧ (ctx (w0Ctx (fun x => { x with stage := 3 }))).stage = 3 ∧ 4 < (5#4).toNat := by
  unfold State.plain atCommit begins; decide +kernel
theorem test_wit_SysWords : w0.plain ∧ w0.core.gang = .alone ∧ (w0Core (fun c => { c with gang := .coupled 3 9 })).core.gang = .coupled 3 9 ∧
    (w0Core (fun c => { c with gang := .coupled 3 9 })).plain ∧ (ctx w0).stage = 0 ∧ (ctx (w0Ctx (fun x => { x with stage := 1 }))).stage = 1 := by
  unfold State.plain; decide +kernel

/-! ## Segments, ends, services -/

/-- An open segment: context 3 is a live helper; a message, an add and a non-temporal store are held; a stash byte is tagged; a
copy, an MXU command and a storage command are pushed. -/
def segMsg : Msg := { hdr := mkHdr 0 5 0 1 7 0 0 1 0, t0 := 11, t1 := 12 }
def segHeld : List Held := [⟨0, .msg segMsg, false, 0⟩, ⟨3, .add 0x5000 2, false, 0⟩, ⟨0, .nt 0x4000000080 [1, 2], false, 0⟩]
def segAct : Act := { w0Act with held := segHeld, retained := false }
def wSeg : State := { w0 with core := { w0.core with
  act := some segAct
  ctxs := mapAt (fun _ => { live := true, pc := 0x4000000100, wp := 0x9400, modv := 1 }) 3 w0.core.ctxs
  ls := writeBytes w0.core.ls 0x4008 [9]
  wins := [some { base := 0x4000, len := 256, va := 0x4000000000, valid := [0, 1, 2, 3], tagged := [(0x4008, 0)] }, none, none, none]
  stoHeld := [⟨0x3, 0, 0, 1, 1, 0⟩]
  chans := [{ q := [{ cmd := 0x104, ctx := 0, inst := 1, stamp := 0 }] }, {}, {}, {}]
  mxu := { w0.core.mxu with q := [{ cmd := 6, scale := 0, ctx := 3, inst := 1, stamp := 0 }] } } }
theorem test_wit_Segments_commit : wSeg.wf = true ∧ redundant wSeg = false ∧ wSeg.core.act = some segAct := by decide +kernel
/-- The same segment after an earlier commit point, later in the program. -/
def wRoll : State := let t := commitSeg id { wSeg with core := { wSeg.core with act := some w0Act } }
  { t with core := { t.core with act := some segAct, ctxs := mapAt (fun x => { x with pc := 0x4000000200 }) 0 t.core.ctxs } }
theorem test_wit_Segments_rollback : wRoll.wf = true ∧ redundant wRoll = false ∧ wRoll.core.act = some segAct ∧ segAct.retained = false ∧
    (ctxAt wRoll 0).live = true ∧ (ctxAt wRoll 0).snap.isSome = true ∧ segAct.nw ≤ 64 := by decide +kernel
/-- A helper started in the open segment. -/
def wRollNew : State := setCtxAt 5 (fun x => { x with live := true, snap := none }) wRoll
theorem test_wit_Segments_rollbackNew : wRollNew.wf = true ∧ redundant wRollNew = false ∧ wRollNew.core.act = some segAct ∧ (ctxAt wRollNew 5).live = true ∧
    (ctxAt wRollNew 5).snap = none := by decide +kernel
theorem test_wit_Endings : w0.plain ∧ redundant w0 = false ∧ w0.core.act = some w0Act ∧ w0.core.cur = 0 ∧ helperLive w0 = false ∧ atCommit w0 ∧ w0Act.stage = none ∧
    (wItem 6 .empty).core.act = some { w0Act with strm := 9, item := 6, stage := some stage3 } ∧ helperLive (wItem 6 .empty) = false ∧ (wItem 6 .empty).plain ∧
    atCommit (wItem 6 .empty) ∧ helperLive wSeg = true ∧ wSeg.plain := by
  unfold State.plain atCommit begins; decide +kernel
theorem test_wit_Endings_import : (w0Core (fun c => { c with act := some { w0Act with strm := 9, item := 5, stage := some stage3 }, fwd := mapAt (fun _ => .valid 4 9 [5, 6]) 4 c.fwd })).core.fwd.getD ((5 - 1) % 32) .empty =
    .valid (5 - 1) 9 [5, 6] := by decide +kernel
/-- Context 3 issues. -/
def wHelper : State := { wSeg with core := { wSeg.core with cur := 3 } }
theorem test_wit_Endings_helper : wHelper.plain ∧ wHelper.core.cur ≠ 0 ∧ atCommit wHelper ∧ redundant wHelper = false := by unfold State.plain atCommit begins; decide +kernel
def wSvc (c : Nat) : State := setWs 4 [0x10000, 0] (w0Ctx (fun x => { x with wait := .svc c }))
theorem test_wit_Services : w0.wf = true ∧ usable w0 [4, 5, 6, 7, 8, 9, 10, 11] [] ∧ (ctx (wSvc 8)).wait = .svc 8 ∧ (tenantOf w0 (asidOf w0)).ctrQuota ≤
    (w0.pkg.ctrPages.filter (fun p => p.asid == asidOf w0)).length ∧ [32].getD 0 0 % 16 = 0 ∧ (ctx (wSvc 8)).longs = [] := by unfold usable; decide +kernel

/-! ## Messages, counters, pushes -/

/-- A send slot 3 to instance 1 on cores 0 to 5 with an owner map and a stage, a counter page, and registers of a message. -/
def wSlots (ws : List Nat) : State := setWs 4 ws { w0 with
  core := { w0.core with slots := [(3, { asid := 1, pkg := 0, inst := 1, placement := [0, 1, 5], owners := [0, 1, 5], stages := [(9, 5, 1)] })] }
  pkg := { w0.pkg with ctrPages := [⟨1, 0x4000001000, 0⟩], ctrs := [⟨1, 0x4000001008, 7, false⟩] } }
def descOf (slot vq pri mode type aux core : Nat) : Nat := slot * 2 ^ 54 + vq * 2 ^ 52 + pri * 2 ^ 50 + mode * 2 ^ 48 + type * 2 ^ 38 + aux * 2 ^ 16 + core
def dMsg : Nat := descOf 3 0 1 0 7 0 5
theorem test_wit_Sends : (wSlots [dMsg, 1, 2]).plain ∧ redundant (wSlots []) = false ∧ groups (.sendMsg {} 4 5 0) (wSlots [dMsg, 1, 2]) {} 4 5 [] 1 2 = .ok ([dMsg], [1, 2]) ∧
    descOk false [0, 1] dMsg = true ∧ (slotOf (wSlots []) dMsg).isSome = true ∧ heldMessages (wSlots []) < 64 ∧
    descOk false [0, 1] (descOf 3 0 3 0 7 0 5) = false ∧ slotOf (wSlots []) (descOf 4 0 1 0 7 0 5) = none ∧ descOk true [0, 1] (descOf 3 0 0 1 7 0 0) = true ∧
    descOk false [2] (descOf 3 0 0 2 0 9 0) = true ∧ (slotOf (wSlots []) (descOf 3 0 0 2 0 9 0)).isSome = true ∧
    groups (.sendReply {} 4 5 0) (wSlots [0x407, 1, 2]) {} 4 5 [] 1 2 = .ok ([0x407], [1, 2]) ∧ 0x407 / 1024 < 3 ∧ w0Act.replied = false ∧ w0Act.klogar = false ∧
    groups (.sendArm { reg := some ⟨0, 0, 6⟩ } 4 4 0) (wSlots [0x4000001008, 9, dMsg, 1, 2]) { reg := some ⟨0, 0, 6⟩ } 4 4 [] 2 3 = .ok ([0x4000001008, 9], [dMsg, 1, 2]) ∧
    (ctrPage (wSlots []) 1 0x4000001008).isSome = true := by unfold State.plain; decide +kernel
/-- Sixty-four messages are held. -/
def wFull : State := { wSlots [dMsg, 1, 2] with core := { (wSlots [dMsg, 1, 2]).core with act := some { w0Act with held := List.replicate 64 ⟨0, .msg segMsg, false, 0⟩ } } }
theorem test_wit_Sends_full : wFull.plain ∧ 64 ≤ heldMessages wFull ∧ (slotOf wFull dMsg).isSome = true := by unfold State.plain; decide +kernel
theorem test_wit_CounterInstructions : groups (.sendCadd {} 4 5 0) (wSlots [0x4000001008, 9]) {} 4 5 [] 1 1 = .ok ([0x4000001008], [9]) ∧
    checkCtr (wSlots []) 1 0x4000001008 = .ok () ∧ atCommit (wSlots []) ∧ groups (.sendCaddr {} 4 5 3) (wSlots [0x4000001008, 9]) {} 4 5 [wA {} 4] 1 1 = .ok ([0x4000001008], [9]) ∧
    oneSrc (.longCread {} 4 4 0) (wSlots [0x4000001008]) {} 4 4 = .ok 0x4000001008 ∧ (wSlots []).pkg.adds = [] ∧ ctrVal (wSlots []) 1 0x4000001008 = (7#64).toNat ∧
    groups (.longCtest {} 4 5 0) (wSlots [0x4000001008, 7]) {} 4 5 [] 1 1 = .ok ([(0x4000001008#64).toNat], [(7#64).toNat]) ∧
    groups (.longCwait {} 4 5) (wSlots [0x4000001008, 7]) {} 4 5 [wA {} 4] 1 1 = .ok ([0x4000001008], [7]) ∧ ctrVal (wSlots []) 1 0x4000001008 < 8 ∧
    groups (.longWpwait {} 4 5) (wSlots [2, 0]) {} 4 5 [wA {} 4] 1 1 = .ok ([2], [0]) ∧ ctrPage w0 (asidOf w0) 0x4000001008 = none ∧ (wSlots []).plain := by
  unfold State.plain atCommit begins; decide +kernel
/-- A command of 64 bytes at local store 0x2000. -/
def wCmd (c : Nat) (y : Nat := 0) : State := let s := setWs 4 [0x2000, y] w0; { s with core := { s.core with ls := writeLE s.core.ls 0x2000 64 c } }
def qp5 : Package → Package := fun k => { k with qps := [(5, ⟨1, 0⟩)], ctrPages := [⟨1, 0x4000001000, 0⟩] }
def nflCmd : Nat := 3 + 5 * 2 ^ 16 + 2 ^ 32 + 0x4000000040 * 2 ^ 256 + 0x4000001008 * 2 ^ 320
def cfillCmd : Nat := 3 + 512 + 0x3000 * 2 ^ 64 + 128 * 2 ^ 96
theorem test_wit_Pushes : (wCmd 6).plain ∧ 0x2000 % 64 = 0 ∧ mxuNames (wCmd 6).core 0x2000 64 = false ∧ sectorValid (wCmd 6).core 0x2000 = true ∧
    readable (wCmd 6) 0x2000 64 = .ok () ∧ groups (.sendMpush {} 4 5 0) (wCmd 6) {} 4 5 [] 1 1 = .ok ([0x2000], [0]) ∧ rejected (mxuChecks (wCmd 6) 6) = none ∧
    rejected (mxuChecks (wCmd 6) 7) = some 0 ∧ (ctx (wCmd 6)).inTrap = false ∧ (wCmd 6).core.mxu.q.length < 8 ∧
    rejected (copyChecks (wCmd 6) {} (BitVec.ofNat 512 cfillCmd)) = none ∧ rejected (copyChecks (wCmd 6) {} 0) = some 0 ∧
    rejected (storageChecks { wCmd nflCmd with pkg := qp5 (wCmd nflCmd).pkg } (BitVec.ofNat 512 nflCmd)) = none ∧ rejected (storageChecks w0 0) = some 0 ∧
    usable (wCmd nflCmd) [4] [] ∧ (look (bits (BitVec.ofNat 512 nflCmd).toNat 25 16) (qp5 w0.pkg).qps).isSome = true := by unfold State.plain usable; decide +kernel
theorem test_wit_Pushes_edge : groups (.sendMpush {} 4 5 0) (setWs 4 [0x1EFC0, 0] w0) {} 4 5 [] 1 1 = .ok ([0x1EFC0], [0]) ∧ 0x1EFC0 + 64 ≤ 0x1F000 ∧
    groups (.sendMpush {} 4 5 0) (setWs 4 [0x1F000, 0] w0) {} 4 5 [] 1 1 = .ok ([0x1F000], [0]) ∧ 0x1F000 < 0x1F000 + 64 := by decide +kernel

/-! ## Helpers and state objects -/

def wStart : State := w0W [0x4000000100, 0x9000]
theorem test_wit_Helpers : wStart.plain ∧ twoSrc (.xferStart {} 4 5) wStart {} 4 5 = .ok (0x4000000100, 0x9000) ∧ checkWp wStart 0x9000 = .ok () ∧ freeHelper wStart = some 1 ∧
    (ctx wStart).live = true ∧ oneSrcNoDst (.xferJoinh {} 4) (w0W [3]) {} 4 = .ok 3 ∧ (ctxAt (w0W [3]) 3).live = false ∧
    oneSrcNoDst (.xferCpl {} 4) (w0W [3]) {} 4 = .ok 3 ∧ Nat.testBit 3 (w0.core.id % 16) = true ∧ 2 ≤ (maskCores 0 3).length ∧ w0.core.cur = 0 := by
  unfold State.plain; decide +kernel
/-- Ten helpers are live. -/
def wTen : State := { wStart with core := { wStart.core with ctxs := wStart.core.ctxs.map (fun x => { x with live := true }) } }
theorem test_wit_Helpers_ten : wTen.plain ∧ freeHelper wTen = none ∧ twoSrc (.xferStart {} 4 5) wTen {} 4 5 = .ok (0x4000000100, 0x9000) := by unfold State.plain; decide +kernel
/-- Cores 0 and 1 of an instance, core 1 arrived (or not) at the coupling of both. -/
def wGang (g : Gang) : State := { w0W [3] with others := [(1, { id := 1, gang := g, act := some w0Act, ctxs := mapAt (fun x => { x with live := true, wait := .cpl }) 0 (List.replicate 11 {}) })] }
theorem test_wit_Helpers_gang : (wGang (.arrived 3 0)).plain ∧ (coreOf (wGang (.arrived 3 0)) 1).gang = .arrived (BitVec.ofNat 16 3) 0 ∧
    (∀ j ∈ maskCores 0 3, j ≠ 0 → (coreOf (wGang .alone) j).act = some w0Act) ∧ w0Act.inst = actInst (wGang .alone) ∧
    (∀ j, j < 16 → 16 * clusterOf 0 + j ≠ 0 → (coreOf (wGang .alone) (16 * clusterOf 0 + j)).gang = .alone) := by unfold State.plain; decide +kernel
theorem test_wit_Helpers_iinv : usable (w0W [0x4000000000, 64]) [wA {} 4, wB {} 5] [] ∧
    forwarded (.xferIinv {} 4 5) (w0W [0x4000000000, 64]) (some (wB {} 5)) none = .ok none ∧ regW (w0W [0x4000000000, 64]) 4 < 2 ^ 56 := by unfold usable; decide +kernel
/-- An instance that has switched from version 1 to version 2 on its core, purging version 1. -/
def wPurge : State := let s := w0W [1]; { s with
  core := { s.core with insts := [(1, { gen := 1, newest := some 2, previous := some 1 })] }
  pkg := { s.pkg with tenants := [(1, { upgrade := true })], insts := s.pkg.insts.map (fun x => (x.1, { x.2 with newest := some 2, previous := some 1 })) } }
theorem test_wit_Helpers_purge : wPurge.plain ∧ oneSrcNoDst (.xferPurge {} 4) wPurge {} 4 = .ok 1 ∧ (look (actInst wPurge) wPurge.pkg.insts).isSome = true ∧
    (coreInst wPurge).previous = some 1 ∧ (coreInst wPurge).dead.contains 1 = false ∧ (coreInst wPurge).newest ≠ some 1 ∧
    purgeable (instOn (coreOf wPurge 0) (actInst wPurge)) = true ∧ ((look 1 wPurge.pkg.tenants).getD {}).upgrade = true ∧ atCommit wPurge ∧
    backsOpen (releaseAt false 1 (commitSeg (Sys2Proof.Machine.after ({} : Pre)) wPurge)) = false := by unfold State.plain atCommit begins; decide +kernel
def wState : State := let s := w0W [0x2000]; { s with
  core := { s.core with ls := writeLE s.core.ls 0x2000 8 (3 + 7 * 65536) }
  pkg := { s.pkg with insts := s.pkg.insts.map (fun x => (x.1, { x.2 with versions := x.2.versions.map (fun v => { v with states := [(7, 3, none)] }) })) } }
theorem test_wit_Helpers_sopen : wState.plain ∧ oneSrc (.longSopen {} 4 4 0) wState {} 4 4 = .ok 0x2000 ∧ mxuNames wState.core 0x2000 8 = false ∧
    sectorValid wState.core 0x2000 = true ∧ readable wState 0x2000 8 = .ok () ∧ readLE wState.core.ls 0x2000 8 = 3 + 7 * 65536 ∧
    ((runningVersion wState).bind (fun v => v.states.find? (fun x => x.1 == 7))) = some (7, 3, none) := by unfold State.plain; decide +kernel

/-! ## The matrix unit -/

/-- An i8 MMA of 2 K steps, its home at 0x4000, A at 0x5000, B at 0x5100; the same with A from the west neighbour. -/
def mmaCmd (z src : Nat) : Cmd := BitVec.ofNat 512 (0x18 + z * 2 ^ 8 + src * 2 ^ 10 + 2 * 2 ^ 16 + 0x4000 * 2 ^ 64 + (if src = 0 then 0x5000 else 0) * 2 ^ 128 +
  0x5100 * 2 ^ 192 + 256 * 2 ^ 256 + 256 * 2 ^ 288)
def mmaEnt (z src : Nat) (begun : Bool) (step : Nat) : MxuCmd := { cmd := mmaCmd z src, scale := 0x3F8000003F800000, ctx := 0, inst := 1, stamp := 0, begun := begun, step := step, committed := true, acc := List.replicate 256 5 }
def wMx (es : List MxuCmd) : State := w0Core (fun c => { c with
  ls := writeBytes c.ls 0x5000 ((List.range 768).map (fun i => BitVec.ofNat 8 (i * 7 + 3)))
  mxu := { c.mxu with q := es } })
def nopEnt (c : Nat) : MxuCmd := { cmd := BitVec.ofNat 512 c, scale := 0, ctx := 0, inst := 1, stamp := 0, committed := true }
theorem test_wit_MmaStep : mOp (mmaCmd 0 0) = 0x18 ∧ fld (BitVec.ofNat 512 (2 + 2 ^ 8)) 9 8 = 1 ∧ fld (2 : Cmd) 9 8 = 0 := by decide +kernel
def wMx0 : State := w0Core (fun c => { c with mxu := { c.mxu with q := [mmaEnt 0 0 false 0] } })
theorem test_wit_MxuCommands : wMx0.wf = true ∧ wMx0.core.halted = false ∧ isMma (mOp (mmaEnt 0 0 false 0).cmd) = true ∧
    fld (mmaEnt 0 0 false 0).cmd 95 64 = 0x4000 ∧ accSize (mmaAcc 0x18) = 4 ∧ poisonAt wMx0.core 0x4000 1024 = none ∧ mxuGated (mmaEnt 0 0 false 0) = false := by decide +kernel
theorem test_wit_MxuCommands_step : (nextTile (wMx [mmaEnt 0 0 true 1]).core (mmaEnt 0 0 true 1) false).map (·.bad) = some none ∧
    (nextTile (wMx [mmaEnt 0 0 true 1]).core (mmaEnt 0 0 true 1) true).map (·.bad) = some none ∧ mmaSrc (mmaCmd 0 0) false = 0 ∧ mmaSrc (mmaCmd 0 0) true = 0 ∧
    mmaKt (mmaCmd 0 0) = 2 ∧ nextTile (wMx [mmaEnt 0 2 true 1]).core (mmaEnt 0 2 true 1) false = none := by decide +kernel
def moutCmd (glob clr : Nat) : Nat := 3 + clr * 2 ^ 10 + glob * 2 ^ 11 + 2 ^ 16 + 2 * 2 ^ 24 + 0x4000 * 2 ^ 64 + (if glob = 1 then 0x4000000200 else 0x6000) * 2 ^ 128 + 64 * 2 ^ 192 +
  0x3F800000 * 2 ^ 224
def msigCmd : Nat := 4 + 0x4000001008 * 2 ^ 64 + 3 * 2 ^ 128
theorem test_wit_MxuCommands_others : mOp (nopEnt 6).cmd = 6 ∧ mOp (nopEnt (2 + 2 ^ 8)).cmd = 2 ∧ mOp (nopEnt 5).cmd = 5 ∧ mOp (nopEnt (1 + 0x4000 * 2 ^ 64)).cmd = 1 ∧
    mOp (nopEnt msigCmd).cmd = 4 ∧ redundant (wMx []) = false ∧ moutGlob (nopEnt (moutCmd 1 0)).cmd = true ∧ mOp (nopEnt (moutCmd 1 0)).cmd = 3 ∧
    moutFault (wMx []) (nopEnt (moutCmd 1 0)) = none ∧ moutGlob (nopEnt (moutCmd 0 0)).cmd = false ∧ outSize (fld (nopEnt (moutCmd 0 0)).cmd 27 24) = 4 ∧
    16 * 4 ≤ fld (nopEnt (moutCmd 0 0)).cmd 223 192 := by decide +kernel
theorem test_wit_MxuCommands_stops : mxuGated { mmaEnt 0 0 false 0 with linked := true, committed := false } = true ∧
    (poisonAt { (wMx []).core with poison := [0x4008 / 8] } 0x4000 (256 * 4)).isSome = true ∧ (mmaCmd 0 0).toNat.testBit 8 = false ∧ mmaSrc (mmaCmd 0 2) false = 2 ∧
    (nextTile { (wMx []).core with mxu := { (wMx []).core.mxu with west := [{ tag := 0x19, bytes := [] }] } } (mmaEnt 0 2 true 0) false).map (·.tag % 256) = some 0x19 ∧
    mmaTag (mmaCmd 0 2) % 256 = 0x18 := by decide +kernel
/-- Cores 0 and 1, linked east and west; core 0 has a tile for core 1. -/
def wLink : State := { w0Core (fun c => { c with mxu := { c.mxu with link := linkIn ⟨0, 1, 0⟩ 0, east := [{ tag := 3, bytes := [1, 2] }] } }) with
  others := [(1, { id := 1, mxu := { link := linkIn ⟨0, 0, 1⟩ 1, west := [{ tag := 2, bytes := [7] }] } }), (4, { id := 4, mxu := { link := linkIn ⟨0, 1, 0⟩ 4 } })] }
theorem test_wit_OperandFlow : wLink.wf = true ∧ (nextArrival 1 false wLink).map (·.1) = some 0 ∧
    (nextArrival 4 true { wLink with core := { wLink.core with mxu := { wLink.core.mxu with south := [{ tag := 3, bytes := [1] }] } } }).map (·.1) = some 0 := by decide +kernel
def skimEnt (b : Nat) : MxuCmd := { mmaEnt 0 0 true 0 with cmd := BitVec.ofNat 512 (0x18 + (if b = 1 then 1 * 2 ^ 12 else 2 ^ 10) + 2 * 2 ^ 16 + 0x4000 * 2 ^ 64 +
  0x4000000000 * 2 ^ 128 + 0x4000000100 * 2 ^ 192 + 256 * 2 ^ 256 + 256 * 2 ^ 288) }
theorem test_wit_OperandFlow_skim : (skimNext (wMx [skimEnt 0]).core false).isSome = true ∧ (skimNext (wMx [skimEnt 1]).core true).isSome = true ∧
    (homeRead (wMx []) (asidOfInst (wMx []) 1) 0x4000000000 256).isSome = true := by decide +kernel
def wSaveMx : State := { wMx [mmaEnt 0 2 true 1] with core := { (wMx [mmaEnt 0 2 true 1]).core with act := some { w0Act with st := .preempted false } } }
theorem test_wit_OperandFlow_save : wSaveMx.core.act = some { w0Act with st := .preempted false } ∧ mxuAtRest wSaveMx.core = true ∧ (mmaEnt 0 2 true 1).acc.length = 256 := by decide +kernel
def wBroken : State := { wLink with
  core := { wLink.core with mxu := { wLink.core.mxu with broken := true } }
  pkg := { wLink.pkg with insts := wLink.pkg.insts.map (fun x => (x.1, { x.2 with rects := [⟨0, 1, 0⟩] })) } }
theorem test_wit_OperandFlow_repair : wBroken.core.mxu.broken = true ∧ wBroken.core.resident = some 1 ∧ (look 1 wBroken.pkg.insts).map (fun x => rectOf x.rects 0) = some (some ⟨0, 1, 0⟩) ∧
    wBroken.wf = true := by decide +kernel

/-! ## Channels and storage -/

def cpEnt (cmd : Nat) (com beg : Bool) (done : Nat) : CopyCmd := { cmd := BitVec.ofNat 512 cmd, ctx := 0, inst := 1, stamp := 0, committed := com, begun := beg, done := done }
def wCh (es : List CopyCmd) : State := w0Core (fun c => { c with
  ls := writeBytes c.ls 0x3000 ((List.range 256).map (fun i => BitVec.ofNat 8 (i + 1)))
  chans := [{}, { q := es, chwp := 64, isOpen := true }, {}, {}] })
/-- A copy of 128 bytes (1), of two rows of 64 (2), a fill (3): inbound (0) or outbound (256), with OPEN (512), SECTR (1,024). -/
def cpCmd (op flags : Nat) : Nat := op + flags + 0x3000 * 2 ^ 64 + (if op = 2 then 64 else 128) * 2 ^ 96 + (if op = 3 ∧ flags / 256 % 2 = 0 then 0 else 0x4000000040) * 2 ^ 128 +
  (if op = 2 then 64 else 0) * 2 ^ 192 + (if op = 2 then 2 else 0) * 2 ^ 224 + (if op = 2 then 256 else 0) * 2 ^ 256 + (if flags / 1024 % 2 = 1 then 0x4000001008 else 0) * 2 ^ 320 +
  (if op = 3 then 0x1122334455667788 else 0) * 2 ^ 448
theorem test_wit_ChannelCommands : (wCh [cpEnt (cpCmd 1 512) false false 0]).wf = true ∧ redundant (wCh []) = false ∧ 1 < (wCh []).core.chans.length ∧ (wCh []).core.halted = false ∧
    preempted (wCh []).core = false ∧ copyInbound (cpEnt (cpCmd 1 512) false false 0).cmd = true ∧ fld (cpEnt (cpCmd 1 512) false false 0).cmd 7 0 = 1 ∧
    copyRemote (cpEnt (cpCmd 1 1024) true true 1).cmd = none ∧ (homeRead (wCh []) (asidOfInst (wCh []) 1) (copyVa (cpEnt (cpCmd 1 1024) true true 1).cmd 1) 64).isSome = true ∧
    homePoisoned (wCh []) (asidOfInst (wCh []) 1) (copyVa (cpEnt (cpCmd 1 1024) true true 1).cmd 1) 64 = false ∧ copyInbound (cpEnt (cpCmd 2 256) true true 1).cmd = false ∧
    writableRange (wCh []) (asidOfInst (wCh []) 1) (copyVa (cpEnt (cpCmd 2 256) true true 1).cmd 1) 64 = true ∧
    poisonAt (wCh []).core (copyLs (cpEnt (cpCmd 2 256) true true 1).cmd 1) 64 = none ∧ fld (cpEnt 4 true false 0).cmd 7 0 = 4 ∧
    copyRemote (cpEnt (cpCmd 1 2048) true true 0).cmd = some 0 ∧ look 0 (wCh []).pkg.routes = none := by decide +kernel
/-- Queue pair 5 to namespace 1 of device 0, with blocks of 512 bytes; a page of buffers at 0x4000000000. -/
def stoEnt (cmd : Nat) : StoCmd := { cmd := BitVec.ofNat 512 cmd, core := 0, ctx := 0, inst := 1, asid := 1, stamp := 0 }
def wSto (es : List StoCmd) (ds : List StoDone := []) : State := w0Pkg (fun k => { k with
  qps := [(5, ⟨1, 0⟩)]
  spaces := [{ dev := 0, nsid := 1, lba := 512, blocks := 4, data := [⟨512, 7⟩, ⟨513, 8⟩] }, { dev := 0, nsid := 2, lba := 512, blocks := 4, ok := false }]
  ctrPages := [⟨1, 0x4000001000, 0⟩], sto := es, stoDone := ds })
def stoCmd (op nsid flags : Nat) : Nat := op + flags + 5 * 2 ^ 16 + nsid * 2 ^ 32 + (if op = 3 then 0 else if op ≤ 2 then 1 else 0x4000000000) * 2 ^ 64 +
  (if op = 3 then 0 else if op ≤ 2 then 0 else 64) * 2 ^ 128 + (if op = 3 ∨ op = 5 then 0 else 0x4000000400) * 2 ^ 192 + 0x4000000800 * 2 ^ 256 + 0x4000001008 * 2 ^ 320
theorem test_wit_StorageCommands : (wSto [stoEnt (stoCmd 1 1 0)]).pkg.sto[0]? = some (stoEnt (stoCmd 1 1 0)) ∧ stoFault (wSto []) (stoEnt (stoCmd 1 1 0)) = none ∧
    stoOp (stoEnt (stoCmd 1 1 0)) = 1 ∧ ((namespaceOf (wSto []) (stoEnt (stoCmd 1 1 0))).map (fun x => (x.ok, blocksExist x (stoEnt (stoCmd 1 1 0))))) = some (true, true) ∧
    stoCk (stoEnt (stoCmd 1 1 0)) = 0 ∧ stoDk (stoEnt (stoCmd 1 1 0)) = 0 ∧ (namespaceOf (wSto []) (stoEnt (stoCmd 1 2 0))).map (·.ok) = some false ∧
    namespaceOf (wSto []) (stoEnt (stoCmd 2 3 0)) = none ∧ stoFault (wSto []) (stoEnt (stoCmd 2 1 0)) = none ∧ stoFault (wSto []) (stoEnt (stoCmd 3 1 0)) = none ∧
    homePoisoned (wSto []) 1 (stoBuf (stoEnt (stoCmd 2 1 4096))) 512 = false ∧ (homeRead (wSto []) 1 (stoBuf (stoEnt (stoCmd 2 1 4096))) 512).isSome = true ∧
    stoFault (wSto []) (stoEnt (stoCmd 5 0 256)) = none ∧ (homeRead (wSto []) 1 0x4000000000 64).isSome = true ∧
    writableRange (wSto []) 1 (stoStat (stoEnt (stoCmd 5 0 256))) 16 = true := by decide +kernel

/-! ## Between the cores -/

def ctrPkg (k : Package) : Package := { k with ctrPages := [⟨1, 0x4000001000, 0⟩], ctrs := [⟨1, 0x4000001008, 7, false⟩, ⟨1, 0x4000001010, 2 ^ 64 - 2, false⟩] }
def add1 (va inc : Nat) : Add := ⟨1, va, inc, 0, 1, 0⟩
def arm1 (th : Nat) (r : Bool) : Arm := ⟨1, 0x4000001008, th, segMsg, 0, 0, 1, r⟩
def wCtr (as : List Add) (bs : List Arm := []) : State := w0Pkg (fun k => { ctrPkg k with adds := as, arms := bs, waiters := [⟨0, 0, 1, 0x4000001008, 9⟩] })
theorem test_wit_CounterEvents : (wCtr [add1 0x4000001010 5, add1 0x4000001008 3]).pkg.adds[1]? = some (add1 0x4000001008 3) ∧
    (∀ b ∈ (wCtr [add1 0x4000001010 5, add1 0x4000001008 3]).pkg.adds.take 1, b.va ≠ 0x4000001008) ∧ (ctrPage (wCtr []) 1 0x4000001008).isSome = true ∧
    2 ^ 64 ≤ ctrVal (wCtr []) 1 0x4000001010 + 5 ∧ ctrPage (wCtr []) 1 0x5008 = none ∧ (wCtr [] [arm1 9 false]).pkg.arms[0]? = some (arm1 9 false) ∧
    ctrVal (wCtr []) 1 0x4000001008 < 9 ∧ 7 ≤ ctrVal (wCtr []) 1 0x4000001008 := by decide +kernel
def flight1 : Flight := { msg := { segMsg with hdr := mkHdr 0 0 0 1 7 0 0 1 0 }, src := 5, ctx := 0, dest := 0 }
theorem test_wit_CounterEvents_emission : (w0Pkg (fun k => { k with armOut := [flight1] })).pkg.armOut[0]? = some flight1 ∧ flight1.pkg = w0.pkg.pkgId.toNat ∧
    residentOn w0 0 (hInst flight1.msg.hdr) = true ∧ w0.core.ready.length < 256 ∧ (ctxAt (w0Ctx (fun x => { x with wait := .cwait 0x4000001008 7 })) 0).wait = .cwait 0x4000001008 7 ∧
    0 < w0.core.ctxs.length := by decide +kernel
def wMsgs (fs : List Flight) : State := w0Pkg (fun k => { k with msgs := fs })
theorem test_wit_Messages : (wMsgs [flight1]).pkg.msgs[0]? = some flight1 ∧ flight1.msg.strm = none ∧ inTurn (wMsgs [flight1]) 0 flight1 = true ∧ flight1.refused = false ∧
    residentOn (wMsgs [flight1]) 0 (hInst flight1.msg.hdr) = true ∧ w0.core.spill = [] ∧ w0.core.inbound.length < 64 ∧
    residentOn (wMsgs []) 0 9 = false ∧ saveOf (wMsgs []) 0 9 = none ∧ (w0Core (fun c => { c with spill := [segMsg] })).core.spill = segMsg :: [] := by decide +kernel
def item1 : Flight := { flight1 with msg := { flight1.msg with strm := some 9 } }
def wStream (fs : List Flight) : State := w0Pkg (fun k => { k with msgs := fs, insts := k.insts.map (fun x => (x.1, { x.2 with stages := [stage3], placement := [0, 1] })) })
theorem test_wit_Messages_stream : (wStream [item1]).pkg.msgs[0]? = some item1 ∧ item1.msg.strm = some 9 ∧ inTurn (wStream [item1]) 0 item1 = true ∧
    ((look 1 (wStream [item1]).pkg.insts).bind (fun x => stageFor x 9)) = some stage3 ∧ nextIndex (wStream []) 1 9 = 0 ∧ stage3.group.getD (0 % max stage3.group.length 1) 0 = 0 ∧
    residentOn (wStream []) 0 1 = true := by decide +kernel
def exp1 : ExpFlight := ⟨1, 9, 4, some [5, 6], 0⟩
theorem test_wit_Messages_export : (w0Pkg (fun k => { k with exps := [exp1] })).pkg.exps[0]? = some exp1 ∧ (look 1 w0.pkg.insts).map (fun x => look 0 x.second) = some none ∧
    residentOn w0 0 1 = true ∧ w0.core.fwd.length = 32 ∧ w0.core.fwd.getD (4 % 32) .empty = .empty ∧
    (wItem 6 (.valid 4 9 [5, 6])).core.fwd.getD (4 % 32) .empty ≠ .empty := by decide +kernel
/-- An idle core with a message of type 7 whose handler takes it. -/
def hd7 : Handler := { type := 7, entry := 0x4000000100, nw := 20, nv := 2, stk := 64 }
def wDisp : State := { w0 with
  core := { w0.core with act := none, ctxs := List.replicate 11 {}, inbound := [{ flight1.msg with t0 := 77 }, segMsg], ls := writeBytes w0.core.ls 0x8000 (List.replicate 24 9) }
  pkg := { w0.pkg with insts := w0.pkg.insts.map (fun x => (x.1, { x.2 with versions := x.2.versions.map (fun v => { v with handlers := [hd7] }) })) } }
theorem test_wit_Dispatches : wDisp.wf = true ∧ wDisp.core.act = none ∧ wDisp.core.resident = some 1 ∧ (look 1 wDisp.pkg.insts).map (mayDispatch wDisp 1) = some true ∧
    wDisp.core.disp = {} ∧ (look 1 wDisp.pkg.insts).map (fun x => x.qwt) = some 1 ∧ newerGen (hG flight1.msg.hdr) (instOn wDisp.core 1).gen = false ∧
    selectVersion (instOn wDisp.core 1) flight1.msg.toNewest (hVq flight1.msg.hdr) (hVt flight1.msg.hdr) = some 1 ∧
    ((look 1 wDisp.pkg.insts).bind (fun x => (x.versions.find? (fun w => w.tag == 1)).bind (fun v => v.handlers.find? (fun h => h.type == hType flight1.msg.hdr)))) = some hd7 ∧
    hd7.redm = 0 ∧ hd7.nw ≤ 64 := by decide +kernel
theorem test_wit_Dispatches_order : (headOf wDisp.core 1).map (heldEntry wDisp.core 1) = some false ∧ headOf wDisp.core 3 = none ∧
    (look 1 wDisp.pkg.insts).map (fun x => weightOf x (3 % 3 + 1)) = some 1 ∧ w0.core.inbound = [] ∧ w0.core.ready = [] ∧ w0.core.items = [] := by decide +kernel
/-- Votes of a PAIR (or TRIAD) group at one commit point; `sig` tells a replica's signature. -/
def voteOf (group : List Nat) (k kind sig : Nat) (h : Nat := 0) : Vote := { core := k, group := group, ctx := h, addr := 0x4000000010, count := 0, ctxsig := BitVec.ofNat 64 sig, regsig := 0, kind := kind }
def pairAct (r m : Nat) (g : List Nat) : Act := { w0Act with redm := m, rplc := r, group := g, retained := false }
def wVote (g : List Nat) (vs : List Vote) : State := { w0 with
  core := { w0.core with act := some (pairAct 0 (g.length - 1) g), ctxs := mapAt (fun x => { x with cand := some (snapOf w0.core.ls x), wait := .verdict }) 0 w0.core.ctxs }
  others := (g.drop 1).map (fun k => (k, { w0.core with id := k, act := some (pairAct 1 (g.length - 1) g), ctxs := mapAt (fun x => { x with cand := some (snapOf w0.core.ls x), wait := .verdict }) 0 w0.core.ctxs }))
  pkg := { w0.pkg with unit := vs } }
def pairVotes (kind a b : Nat) : List Vote := [voteOf [0, 1] 0 kind a, voteOf [0, 1] 1 kind b]
theorem test_wit_Verdicts : (wVote [0, 1] (pairVotes 0 3 3)).pkg.unit[0]? = some (voteOf [0, 1] 0 0 3) ∧
    ballots (wVote [0, 1] (pairVotes 0 3 3)) [0, 1] 0 = pairVotes 0 3 3 ∧ (∀ w ∈ pairVotes 0 3 3, agree w (voteOf [0, 1] 0 0 3) = true ∧ w.kind = 0) ∧
    (∀ w ∈ pairVotes 3 3 3, agree w (voteOf [0, 1] 0 3 3) = true ∧ w.kind = 3) ∧ agree (voteOf [0, 1] 0 0 3) (voteOf [0, 1] 1 0 4) = false ∧
    ballots (wVote [0, 1, 2] [voteOf [0, 1, 2] 0 0 3, voteOf [0, 1, 2] 1 0 3, voteOf [0, 1, 2] 2 0 4]) [0, 1, 2] 0 =
      [voteOf [0, 1, 2] 0 0 3, voteOf [0, 1, 2] 1 0 3, voteOf [0, 1, 2] 2 0 4] ∧ agree (voteOf [0, 1, 2] 0 0 3) (voteOf [0, 1, 2] 0 0 3) = true ∧
    agree (voteOf [0, 1, 2] 0 0 3) (voteOf [0, 1, 2] 1 0 3) = true ∧ agree (voteOf [0, 1, 2] 0 0 3) (voteOf [0, 1, 2] 2 0 4) = false ∧
    (wVote [0, 1] []).wf = true ∧ (∀ k ∈ [0, 1], paused (coreOf (wVote [0, 1] [voteOf [0, 1] 0 0 3]) k) = false) ∧
    [0, 1].filter (fun k => !(ballots (wVote [0, 1] [voteOf [0, 1] 0 0 3]) [0, 1] 0).any (fun w => w.core == k)) = [1] ∧
    (w0Pkg (fun k => { k with votes := [voteOf [0, 1] 0 0 3] })).pkg.votes[0]? = some (voteOf [0, 1] 0 0 3) := by decide +kernel

/-! ## Time-sharing, queues, upgrades -/

def wInst (f : Inst → Inst) (s : State := w0) : State := { s with pkg := { s.pkg with insts := s.pkg.insts.map (fun x => (x.1, f x.2)) } }
def inst1 (s : State) : Inst := (look 1 s.pkg.insts).getD { asid := 0 }
/-- A copy command runs: the core is not quiet. -/
def wBusy : State := w0Core (fun c => { c with chans := [{ q := [{ cmd := 0x104, ctx := 0, inst := 1, stamp := 0, begun := true }] }, {}, {}, {}] })
/-- The activation of w0 is in its image, and its instance is to go on here. -/
def wBack0 : State := let t := displace 1 1 (w0W [7, 8]); { t with core := { t.core with resident := some 1 } }
def wFresh : State := let t := wInst (fun x => { x with fresh := [0], rects := [⟨0, 1, 1⟩] }); { t with core := { t.core with act := none } }
def wAway : State := let t := displace 1 1 w0; t
theorem test_wit_TimeSharing : settled w0 0 = some (1, inst1 w0) ∧ (∀ j ∈ membersOf (inst1 w0), residentOn w0 j 1 = true ∧ voting (coreOf w0 j) = false) ∧
    (∀ j ∈ membersOf (inst1 w0), quiet (coreOf (onGroup [0] (fun s => if s.core.act.isSome then stopIssue s else s) w0) j) = true) ∧
    settled wBusy 0 = some (1, inst1 wBusy) ∧ quiet (coreOf (onGroup [0] (fun s => if s.core.act.isSome then stopIssue s else s) wBusy) 0) = false ∧ 0 ∈ membersOf (inst1 wBusy) ∧
    w0.core.mxu.q = [] ∧ wBack0.core.resident = some 1 ∧ membersOf (inst1 wBack0) = [wBack0.core.id] ∧ (inst1 wBack0).fresh = [] ∧
    (saveOf wBack0 0 1).map (fun sv => (sv.live &&& (255 - Config.features), some sv.asid == wBack0.core.lastAsid)) = some (0, true) ∧
    wFresh.core.resident = some 1 ∧ (inst1 wFresh).fresh.contains 0 = true ∧ (inst1 wFresh).placement.contains 0 = true ∧ chosen wAway 1 (inst1 wAway) = true ∧
    (membersOf (inst1 wAway)).contains 0 = true ∧ (∀ j ∈ membersOf (inst1 wAway), (coreOf wAway j).resident = none) := by decide +kernel
/-- A queue of 8 entries whose rings lie in the page of w0; entry 0 is `e`. -/
def queue1 : Queue := { asid := 1, pri := 1, mask := [0], inst := 1, ring := 0x4000002000, cring := 0x4000003000, n := 3, door := 0x5000000008, taken := 0x5000000010, compl := 0x5000000018, cons := 0x5000000020 }
def reqOf (ver type mode core t0 : Nat) : Nat := ver + type * 2 ^ 38 + mode * 2 ^ 48 + core * 2 ^ 50 + t0 * 2 ^ 128 + 99 * 2 ^ 256
def wQueue (e : Nat) : State := w0Pkg (fun k => { k with tenants := [(1, { queueQuota := 1, ringQuota := 768 })], queues := [(4, queue1)], ctrPages := [⟨1, 0x5000000000, 0⟩], ctrs := [⟨1, 0x5000000008, 1, false⟩], mem := writeBytes k.mem 0x102000 (bytesLE e 64) })
theorem test_wit_Messages_queue : look 4 (wQueue (reqOf 1 7 0 0 5)).pkg.queues = some queue1 ∧ mayTake (wQueue (reqOf 1 7 0 0 5)) 4 queue1 (inst1 w0) = true ∧
    homeRead (creameryView (wQueue (reqOf 1 7 0 0 5))) 1 (0x4000002000 + 64 * (ctrVal (wQueue (reqOf 1 7 0 0 5)) 1 0x5000000010 % 2 ^ 3)) 64 = some (bytesLE (reqOf 1 7 0 0 5) 64) ∧
    reqOf 1 7 0 0 5 = numLE (bytesLE (reqOf 1 7 0 0 5) 64) ∧ (ctrPage (wQueue 0) 1 0x5000000010).isSome = true ∧ ctrVal (wQueue 0) 1 0x5000000010 + 1 < 2 ^ 64 ∧
    queue1.compl ≠ queue1.taken ∧ reqOk (reqOf 1 7 0 0 5) = true ∧ reqDest (wQueue 0) queue1 (inst1 w0) (reqOf 1 7 0 0 5) = some 0 ∧ reqOk (reqOf 2 7 0 0 5) = false ∧
    reqOk (reqOf 1 7 0 9 5) = true ∧ reqDest (wQueue 0) queue1 (inst1 w0) (reqOf 1 7 0 9 5) = none := by decide +kernel
def wVers (a b : Version) (f : Inst → Inst) (c : CoreInst) : State :=
  let t := wInst (fun x => f { x with versions := [a, b] }); { t with core := { t.core with insts := [(1, c)] } }
def ver (n : Nat) : Version := { tag := n, base := 0x4000000000 + n * 0x10000, textLo := 0x4000000000 + n * 0x10000, textHi := 0x4000000000 + n * 0x10000 + 0x1000 }
/-- Version 2 staged; version 2 newest and 1 previous, with a PURGE of 1 under way or returned. -/
def wStaged : State := let t := wVers (ver 1) (ver 2) (fun x => { x with staged := some 2 }) { newest := some 1, staged := some 2 }
  { t with pkg := { t.pkg with switches := [(0, 1)] } }
def wQuietStaged : State := { wStaged with pkg := { wStaged.pkg with switches := [] } }
def wPrev (d : Bool) : State := wVers (ver 1) (ver 2) (fun x => { x with newest := some 2, previous := some 1, purged := d }) { newest := some 2, previous := some 1 }
def purge1 (m a : List Nat) : Purge := { inst := 1, tag := 1, core := 0, ctx := 0, toMark := m, toAck := a }
def wPurging (m a : List Nat) (upc : Nat) (adds : List Add) : State := let t := wVers { ver 1 with upc := upc } (ver 2) (fun x => { x with newest := some 2, previous := some 1 }) { newest := some 2, previous := some 1 }
  { t with pkg := { t.pkg with purges := [purge1 m a], adds := adds } }
theorem test_wit_Upgrades : wStaged.pkg.switches.contains (wStaged.core.id, 1) = true ∧ (look 1 wStaged.pkg.insts).isSome = true ∧ (instOn wStaged.core 1).staged = some 2 ∧
    (inst1 wStaged).staged = some 2 ∧ (∀ p ∈ wQuietStaged.pkg.switches, p.2 ≠ 1) ∧ (∀ k ∈ (inst1 wQuietStaged).placement, (instOn (coreOf wQuietStaged k) 1).staged = some 2) ∧
    (inst1 (wPrev true)).previous = some (ver 1).tag ∧ (inst1 (wPrev true)).versions.find? (fun v => v.tag == (ver 1).tag) = some (ver 1) ∧
    upgradeDone (wPrev true) 1 (inst1 (wPrev true)) (ver 1) = true ∧ upgradeDone (wPrev false) 1 (inst1 (wPrev false)) (ver 1) = false ∧
    (wPurging [0] [0] 0 []).pkg.purges = [purge1 [0] [0]] ∧ (purge1 [0] [0]).toMark.contains 0 = true ∧ (inst1 (wPurging [0] [0] 0 [])).second = [] := by decide +kernel
theorem test_wit_Upgrades_ack : (purge1 [] [0]).toAck.contains 0 = true ∧ (purge1 [] [0]).toMark.contains 0 = false ∧
    (inst1 (wPurging [] [0] 0x5000000000 [])).versions.find? (fun w => w.tag == 1) = some { ver 1 with upc := 0x5000000000 } ∧
    (∀ a ∈ (wPurging [] [0] 0x5000000000 [add1 0x5000000008 1]).pkg.adds, a.core = 0 → a.asid = 1 → a.va ≠ 0x5000000000) ∧
    (∃ a ∈ (wPurging [] [0] 0x5000000000 [add1 0x5000000000 1]).pkg.adds, a.core = 0 ∧ a.asid = (inst1 w0).asid ∧ a.va = 0x5000000000) := by decide +kernel

/-! ## Loads and translation -/

/-- A smallest object: two bytes of text, the null symbol, the strings; a library, or a module of version 2. -/
def objRest : List Byte :=
  List.replicate 32 0 ++ bytesLE (1 * 2 ^ 32 + 192 * 2 ^ 64 + 2 * 2 ^ 96) 32 ++ bytesLE (10 * 2 ^ 32 + 194 * 2 ^ 64 + 24 * 2 ^ 96) 32 ++
    bytesLE (11 * 2 ^ 32 + 218 * 2 ^ 64 + 3 * 2 ^ 96) 32 ++ [0, 0] ++ List.replicate 24 0 ++ [0, 0x6D, 0]
def objOf (h : Nat) : List Byte := bytesLE (h + (sig64 0 objRest).toNat * 2 ^ 448) 64 ++ objRest
def objHead (mod vtag name wsb own : Nat) : Nat :=
  0x014F4853 + 2 ^ 32 + mod * 2 ^ 48 + 0x5000000000 * 2 ^ 64 + vtag * 2 ^ 128 + 4 * 2 ^ 144 + 64 * 2 ^ 160 + name * 2 ^ 192 + 0xFFFFFFFF * 2 ^ 224 + wsb * 2 ^ 288 + own
def libObj : List Byte := objOf (objHead 0 0 0 0 0)
def modObj : List Byte := objOf (objHead 1 2 1 0x8000 (0x111 * 2 ^ 384 + 0x7000 * 2 ^ 320))
def loadOf (o : List Byte) (i : Option Nat) (sw : Bool) : LoadReq :=
  { object := o, asid := 1, inst := i, newInst := 2, base := none, hdie := none, upc := some 0x4100000000, sw := sw, actlim := 0, rects := [⟨5, 1, 1⟩], second := [], stages := [] }
def wLoad : State := let t := wInst (fun x => { x with rects := [⟨0, 1, 1⟩] }); { t with pkg := { t.pkg with ctrPages := [⟨1, 0x4100000000, 0⟩] } }
def isOk {α : Type} (x : Load α) : Bool := match x with | .ok _ => true | .error _ => false
def modOf (x : Load Ready) : Option Bool := match x with | .ok d => some (hIsMod d.h) | .error _ => none

set_option maxRecDepth 100000 in
theorem test_wit_ObjectLoads : requestOk wLoad (loadOf libObj none true) = true ∧ modOf (prepare (allocPages (loadOf libObj none true) wLoad) (loadOf libObj none true)) = some false ∧
    requestOk wLoad (loadOf [] none true) = true ∧ isOk (prepare (allocPages (loadOf [] none true) wLoad) (loadOf [] none true)) = false := by decide +kernel

set_option maxRecDepth 100000 in
theorem test_wit_ObjectLoads_module : modOf (prepare (allocPages (loadOf modObj none true) wLoad) (loadOf modObj none true)) = some true ∧ requestOk wLoad (loadOf modObj (some 1) true) = true ∧
    modOf (prepare (allocPages (loadOf modObj (some 1) true) wLoad) (loadOf modObj (some 1) true)) = some true := by decide +kernel
/-- Context 0 waits for a translation of a store, of a fetch; a page where it waits. -/
def wFault : State := w0Ctx (fun x => { x with wait := .dataFault 0x5000000123 })
def wText : State := w0Ctx (fun x => { x with wait := .fetch 0x5000000124 })
def fix1 : PageSpec := ⟨1, 0x5000000000, 0, 0x200000, 0, true, true, none, []⟩
def page0 : Page := { asid := 1, va := 0x4000000000, size := 1, frame := 0x100000, die := 0 }
def wMig (ms : List Migration) (sh : List Shoot) : State := w0Pkg (fun k => { k with migrs := ms, shoot := sh })
/-- The invalidation of `page0`, which the clusters `l` have acknowledged, in a machine that lists a core of two clusters. -/
def shoot1 (l : List Nat) : Shoot := { asid := 1, va := 0x4000000000, old := some page0, acked := l }
def wShoot (l : List Nat) : State := let t := wMig [] [shoot1 l]; { t with others := [(16, { id := 16 })] }
def mig1 (stub : Bool) : Migration := ⟨1, 0x4000000000, 1, 0x200000, stub⟩
theorem test_wit_Translation : (misses w0)[0]? = some ⟨0, 1, 0x4000000000⟩ ∧ (w0.pkg.tlb.filter (fun x => x.cluster == 0)).length < 1024 ∧
    (sites wFault)[0]? = some (.ctx wFault.core.id 0 0x5000000123) ∧ siteVa wFault (.ctx 0 0 0x5000000123) = (1, 0x5000000123) ∧ spanFree wFault 1 0x5000000000 4096 = true ∧
    frameFree wFault 0x200000 4096 = true ∧ redundant wFault = false ∧ wFault.core.act = some w0Act ∧ (ctxAt wText 0).wait = .fetch 0x5000000124 ∧
    fetchable wText (asidOf wText) 0x5000000124 = false ∧ redundant wText = false ∧ (mapPage (asidOf wText) 0x5000000124 fix1 wText).isSome = true ∧
    (wShoot []).pkg.shoot[0]? = some (shoot1 []) ∧ (unacked (wShoot []))[0]? = some (0, 0) ∧
    (clusters (wShoot [])).all (fun j => ((shoot1 []).acked ++ [0]).contains j) = false ∧ (unacked (wShoot [0]))[0]? = some (0, 1) ∧
    (clusters (wShoot [0])).all (fun j => ((shoot1 [0]).acked ++ [1]).contains j) = true ∧
    covers 1 0x4000000010 page0 = true ∧ (shoot1 []).acked.contains (clusterOf (wShoot []).core.id) = false ∧
    (shoot1 [0]).acked.contains (clusterOf (wShoot [0]).core.id) = true := by decide +kernel
theorem test_wit_Translation_move : (wMig [] []).pkg.ctrPages.find? (fun q => q.asid == 1 && q.va == 0x4000000000) = none ∧
    (wMig [] []).pkg.pages.find? (fun q => q.asid == 1 && q.va == 0x4000000000 && q.remote.isNone) = some page0 ∧ 0x200000 % pageBytes page0.size = 0 ∧
    frameFree (wMig [] []) 0x200000 (pageBytes page0.size) = true ∧
    (wMig [mig1 false] []).pkg.migrs.find? (fun m => m.asid == 1 && m.va == 0x4000000000) = some (mig1 false) ∧ (mig1 false).stub = false ∧ (mig1 true).stub = true ∧
    (∀ p ∈ (wMig [mig1 true] []).pkg.shoot, p.asid = (mig1 true).asid → p.va ≠ (mig1 true).va) := by decide +kernel
/-- A window whose sector 0 is not yet filled, with a tagged byte; context 0 waits for it. -/
def win0 : Win := { base := 0x4000, len := 256, va := 0x4000000000, valid := [], tagged := [(0x4008, 0)] }
def wFill : State := w0Core (fun c => { c with wins := [some win0, none, none, none], ls := writeBytes c.ls 0x4008 [9], ctxs := mapAt (fun x => { x with wait := .fill 0x4010 }) 0 c.ctxs })
def dirty1 : Dirty := ⟨0x100040, 7, 0, 0, [], false⟩
def back1 (x : Byte) : Back := { bytes := [(0x100040, x)], core := 0, waiters := [] }
def wHome : State := w0Pkg (fun k => { k with nts := [⟨1, 0x4000000080, [1, 2], 0, 0, 1, 0⟩], cc := [dirty1], wb := [back1 5, back1 6] })
theorem test_wit_CacheEvents : wFill.wf = true ∧ (ctxAt wFill 0).wait = .fill 0x4010 ∧ winAt wFill.core 0x4010 = some (0, win0) ∧ sectorOf win0 0x4010 = 0 ∧
    wFill.core.wins.getD 0 none = some win0 ∧ 0 < wFill.core.wins.length ∧ redundant wFill = false ∧ wFill.pkg.nts = [] ∧ heldNow wFill = [] ∧ win0.valid.contains 0 = false ∧
    migrating wFill (asidOf wFill) 0x4000000000 = false ∧ (clusterRead wFill (clusterOf 0) (asidOf wFill) 0x4000000000 64).isSome = true ∧
    sectorPoison wFill (asidOf wFill) 0x4000000000 = none ∧ writableRange wHome 1 0x4000000080 2 = true ∧ wHome.pkg.cc[0]? = some dirty1 ∧ wHome.pkg.wb[0]? = some (back1 5) ∧
    (∀ x ∈ wHome.pkg.wb.take 0, clusterOf x.core = clusterOf (back1 5).core → ∀ p ∈ x.bytes, ∀ q ∈ (back1 5).bytes, p.1 ≠ q.1) := by decide +kernel

/-! ## Errors, management, debugging -/

/-- A core with three suspect marks at rest, its cluster's spare free or used. -/
def wSick (used : List Nat) : State := { w0 with
  core := { w0.core with act := none, suspects := 3, resident := none, ctxs := List.replicate 11 {} }
  pkg := { w0.pkg with spareUsed := used, insts := [], decTed := used, mgState := 4 } }
def flitTo (d n : Nat) : Flit := ⟨d, n, .message 3 0 8 9⟩
def wRoute : State := w0Pkg (fun k => { k with routes := [(9, 2)] })
theorem test_wit_ErrorEvents : 3 ≤ (wSick []).core.suspects ∧ (wSick []).core.act = none ∧ (wSick []).core.dead = false ∧ quiet (wSick []).core = true ∧
    (wSick []).pkg.spareUsed.contains (clusterOf (wSick []).core.id) = false ∧ (wSick [0]).pkg.spareUsed.contains (clusterOf (wSick [0]).core.id) = true ∧ (wSick [0]).pkg.insts = [] ∧
    (wSick [0]).pkg.decTed.contains 0 = true ∧ (wSick []).pkg.decTed.contains 0 = false ∧ w0.pkg.badLinks.contains 3 = false ∧ w0.pkg.lanes < 17 ∧
    (flitTo 9 0).dest ≠ wRoute.pkg.pkgId.toNat ∧ (flitTo 9 0).hops < 8 ∧ (look 9 wRoute.pkg.routes).isSome = true ∧ 8 ≤ (flitTo 9 8).hops ∧ look 8 wRoute.pkg.routes = none ∧
    (flitTo 0 0).dest = wRoute.pkg.pkgId.toNat ∧ (flitTo 0 0).body = .message 3 0 8 9 ∧ trafficTo wRoute 9 = false := by decide +kernel
theorem test_wit_ErrorEvents_management : w0.pkg.powered = true ∧ w0.pkg.mgState < 4 ∧ w0.pkg.mgState ≤ 3 ∧ (wSick []).pkg.powered = true ∧ (wSick []).pkg.mgState = 4 ∧
    (w0Pkg (fun k => { k with powered := false })).pkg.powered = false ∧ w0.agenda = [] ∧ 0 = coreUnit w0.core.id := by decide +kernel
def wHalted : State := w0Core (fun c => { c with halted := true })
theorem test_wit_Debugging : wHalted.wf = true ∧ wHalted.core.halted = true ∧ w0.wf = true ∧ w0.core.halted = false := by decide +kernel
def wOther : State := { w0 with others := [(5, { id := 5 })] }
theorem test_wit_Debugging_elsewhere : 5 ≠ wOther.core.id ∧ (coreOf wOther 5).id = 5 ∧ 6 ≠ wOther.core.id ∧ (coreOf wOther 6).id = 6 := by decide +kernel
theorem test_wit_Translation_counter : (wCtr []).pkg.ctrPages.find? (fun q => q.asid == 1 && q.va == 0x4000001000) = some ⟨1, 0x4000001000, 0⟩ ∧ 0 ≠ 1 * 256 + 5 % 256 ∧
    ((wCtr []).pkg.ctrPages.filter (fun q => q.home == 1 * 256 + 5 % 256)).length < 8 ∧ (wCtr []).pkg.migrs = [] := by decide +kernel

/-! ## Further clauses -/

/-- The same long result, outstanding and written. -/
theorem test_wit_LongWindows_written : (wLong 2 none).core.ctxs.length = 11 ∧ ((ctx (wLong 0 none)).longs.map (·.written)) = [false] ∧
    (ctx (wLong 2 none)).longs.map (·.left) = [2] := by decide +kernel
/-- A privileged core about to store to SNAPSEL. -/
def wPriv (x : Nat) : State := setCtx (fun c => { c with priv := true }) (w0W [0x4100000000000002, x])
theorem test_wit_Stores_snapsel : (wPriv 0x1FE78).plain ∧ usable (wPriv 0x1FE78) [4, 5] [] ∧ storeEa {} 0 0x1FE78 = 0x1FE78 ∧ 0x1FE40 ≤ 0x1FE78 ∧ 0x1FE78 < 0x1FE80 ∧
    forwarded (.st {} 4 5 0) (wPriv 0x1FE78) (some 5) none = .ok none ∧ reachable (wPriv 0x1FE78) 0x1FE78 8 ∧ memOrder {} = 0 ∧ memNt {} = false := by
  unfold State.plain usable reachable; decide +kernel
theorem test_wit_Loads_latched : (setCtx (fun x => { x with stage := 1, ops := [0x4000] }) (wVal [] 0)).plain ∧
    (ctx (setCtx (fun x => { x with stage := 1, ops := [0x4000] }) (wVal [] 0))).ops = [0x4000] ∧
    asksHome (ordPre 3 2) 0x4000 (setCtx (fun x => { x with stage := 1, ops := [0x4000] }) (wVal [] 0)) = false := by unfold State.plain; decide +kernel
/-- A window one of whose bytes held 3 before 9. -/
def wEarlier : State := let s := wVal [] 0x4000 [0]; { s with core := { s.core with
  ls := writeBytes s.core.ls 0x4008 [9]
  wins := s.core.wins.map (Option.map (fun w => { w with earlier := [(0x4008, 3)] })) } }
theorem test_wit_StashInstructions_close : wEarlier.plain ∧ usable wEarlier [6] [] ∧ regW wEarlier 6 = 0 ∧ atCommit wEarlier ∧
    ((commitSeg (Sys2Proof.Machine.after ({} : Pre)) wEarlier).core.wins.getD 0 none).isSome = true ∧ Memory.wf wEarlier.core.ls = true := by
  unfold State.plain usable atCommit begins; decide +kernel
theorem test_wit_Segments_unreadable : ∃ x ∈ (setCtxAt 0 (fun x => { x with snapBad := true }) wRoll).core.ctxs, x.live = true ∧ x.snapBad = true :=
  ⟨ctxAt (setCtxAt 0 (fun x => { x with snapBad := true }) wRoll) 0, by decide +kernel, by decide +kernel, by decide +kernel⟩
theorem test_wit_Segments_readable : (∀ x ∈ wRoll.core.ctxs, x.live = true → x.snapBad = false) ∧ wSeg.pkg.cc = [] ∧ wSeg.pkg.wb = [] := by decide +kernel
theorem test_wit_VecMoves_insert : (w0W []).plain ∧ vPre.fwd = none ∧ vPre.reg.isSome = true ∧ checkType (.vecIns vPre 1 2) w0 = .ok () ∧
    vecReady w0 [wB vPre 2, cNum vPre] [vA w0 vPre 1] [wB vPre 2, cNum vPre] [] := by unfold State.plain vecReady; decide +kernel
theorem test_wit_FpuResults_fma : names w0 [wA rPre 4, wB rPre 5, cNum rPre] [] = .ok () ∧ reads w0 ([wA rPre 4] ++ unreplaced none [wB rPre 5] [cNum rPre]) [] = .ok () := by
  decide +kernel
theorem test_wit_MxuCommands_second : ({ nopEnt msigCmd with second := true } : MxuCmd).second = true ∧ (nopEnt msigCmd).second = false ∧
    (nopEnt (moutCmd 1 0)).second = false := by decide +kernel
theorem test_wit_OperandFlow_ready : (skimReady (wMx [skimEnt 0]) false).isSome = true ∧ (skimReady (wMx [skimEnt 1]) true).isSome = true ∧
    skimReady (wMx []) false = none := by decide +kernel
theorem test_wit_OperandFlow_pins : pinLines [7] [] = some [7] := by decide +kernel
/-- A copy whose primary's secondary is core 16. -/
def wSeconds : State := { wCh [{ cpEnt (cpCmd 1 512) true true 0 with seconds := [16] }] with others := [(16, { id := 16, chans := [{}, {}, {}, {}] })] }
theorem test_wit_ChannelCommands_seconds : wSeconds.wf = true ∧ (16 : Nat) ≠ wSeconds.core.id ∧ 1 < wSeconds.core.chans.length ∧ 1 < (coreOf wSeconds 16).chans.length ∧
    copyInbound (cpEnt (cpCmd 1 512) true true 0).cmd = true ∧ copyRemote (cpEnt (cpCmd 1 512) true true 0).cmd = none ∧ fld (cpEnt (cpCmd 1 512) true true 0).cmd 7 0 = 1 ∧
    (homeRead wSeconds (asidOfInst wSeconds 1) (copyVa (cpEnt (cpCmd 1 512) true true 0).cmd 0) 64).isSome = true ∧
    homePoisoned wSeconds (asidOfInst wSeconds 1) (copyVa (cpEnt (cpCmd 1 512) true true 0).cmd 0) 64 = false := by decide +kernel
theorem test_wit_StorageCommands_ready : stoOp (stoEnt (stoCmd 5 0 256)) = 5 ∧ stoFault (wSto [stoEnt (stoCmd 5 0 256)]) (stoEnt (stoCmd 5 0 256)) = none ∧
    (wSto [stoEnt (stoCmd 5 0 256)]).pkg.sto[0]? = some (stoEnt (stoCmd 5 0 256)) ∧
    homePoisoned (creameryView (wSto [])) 1 (stoBuf (stoEnt (stoCmd 2 1 4096))) 512 = false ∧
    (homeRead (creameryView (wSto [])) 1 (stoBuf (stoEnt (stoCmd 2 1 4096))) 512).isSome = true ∧
    homePoisoned (creameryView (wSto [])) 1 (stoDictSpan (stoEnt (stoCmd 5 0 256))).1 0 = false := by decide +kernel
/-- An arm's message for package 3; a full ready ring. -/
def wArmed (p n : Nat) : State := { w0Pkg (fun k => { k with armOut := [{ flight1 with pkg := p }] }) with core := { w0.core with ready := List.replicate n segMsg } }
theorem test_wit_CounterEvents_armed : (wArmed 3 0).pkg.armOut[0]? = some { flight1 with pkg := 3 } ∧ 3 ≠ (wArmed 3 0).pkg.pkgId.toNat ∧
    (wArmed 0 256).pkg.armOut[0]? = some flight1 ∧ isShadow (wArmed 0 256) 0 (hInst flight1.msg.hdr) = false ∧ 256 ≤ (coreOf (wArmed 0 256) 0).ready.length ∧
    residentOn (wArmed 0 256) 0 (hInst flight1.msg.hdr) = true := by decide +kernel
theorem test_wit_CounterEvents_register : (∀ b ∈ (wCtr [] [arm1 9 false]).pkg.arms.take 0, b.core = (arm1 9 false).core → b.registered = true) ∧
    ctrPage (wCtr []) 1 0x4000001008 = some ⟨1, 0x4000001000, 0⟩ ∧
    (∀ b ∈ (wCtr [] [arm1 9 false]).pkg.arms, b.registered = true → b.asid = 1 → b.va = 0x4000001008 → ctrVal (wCtr [] [arm1 9 false]) 1 0x4000001008 < b.th) := by decide +kernel
/-- Sixty-four messages wait, and `n` in the spill queue. -/
def wSpill (n : Nat) : State := { wMsgs [flight1] with core := { w0.core with inbound := List.replicate 64 segMsg, spill := List.replicate n segMsg } }
theorem test_wit_Messages_spill : 64 ≤ (coreOf (wSpill 0) flight1.dest).inbound.length ∧ (coreOf (wSpill 0) flight1.dest).spill.length < spillRoom ∧
    isShadow (wSpill 0) flight1.dest (hInst flight1.msg.hdr) = false ∧ takesFor (wMsgs []) 0 9 = false := by
  refine ⟨by decide +kernel, Nat.succ_pos _, by decide +kernel, by decide +kernel⟩
theorem test_wit_Messages_full : (wSpill spillRoom).core.spill ≠ [] ∧ spillRoom ≤ (wSpill spillRoom).core.spill.length :=
  ⟨by simp [wSpill, spillRoom, List.replicate_succ], by simp [wSpill]⟩
def againItem : Item := { strm := 9, index := 4, msg := flight1.msg, again := true }
theorem test_wit_Dispatches_again : (w0Core (fun c => { c with items := [againItem] })).core.items = againItem :: [] ∧ againItem.again = true := by decide +kernel
theorem test_wit_TimeSharing_clear : (∀ j ∈ membersOf (inst1 w0), clearing (coreOf w0 j) = false) ∧ (∀ j ∈ membersOf (inst1 wBusy), clearing (coreOf wBusy j) = false) ∧
    saveOf wFresh wFresh.core.id 1 = none ∧ w0.core.act.isSome = true ∧ wFresh.core.act = none := by decide +kernel
theorem test_wit_CacheEvents_nts : (∀ y ∈ wHome.pkg.nts.take 0, y.core = 0 → y.asid = 1 → meets y.va y.bytes.length 0x4000000080 2 = false) ∧
    writableRange (focusOn 0 wHome) 1 0x4000000080 2 = true ∧ (back1 5).ordered = false ∧ ntsTo (focusOn (back1 5).core wHome) ((back1 5).bytes.map (·.1)) = [] := by decide +kernel
/-- Two non-temporal stores of one core to one byte. -/
def wNts : State := w0Pkg (fun k => { k with nts := [⟨1, 0x4000000080, [1, 2], 0, 0, 1, 0⟩, ⟨1, 0x4000000081, [3], 0, 0, 1, 0⟩] })
theorem test_wit_CacheEvents_order : ∃ y ∈ wNts.pkg.nts.take 1, y.core = 0 ∧ y.asid = 1 ∧ meets y.va y.bytes.length 0x4000000081 1 = true :=
  ⟨⟨1, 0x4000000080, [1, 2], 0, 0, 1, 0⟩, by decide +kernel, by decide +kernel, by decide +kernel, by decide +kernel⟩
/-- A counter page on its way to cluster 5 of die 1. -/
def migCtr : Migration := ⟨1, 0x4000001000, 1, 5, false⟩
theorem test_wit_Translation_counterMoves : (wMig [migCtr] []).pkg.migrs.find? (fun m => m.asid == 1 && m.va == 0x4000001000) = some migCtr ∧ migCtr.stub = false ∧
    ((wCtr []).pkg.ctrPages.filter (fun q => q.home == migCtr.die * 256 + migCtr.frame % 256)).length < 8 := by decide +kernel
theorem test_wit_ErrorEvents_flits : (⟨0, 0, .item 9 0 3 8 9⟩ : Flit).dest = w0.pkg.pkgId.toNat ∧ (⟨0, 0, .armed 0 3 8 9⟩ : Flit).dest = w0.pkg.pkgId.toNat ∧
    0x4000001008 % 8 = 0 ∧ (ctrPage (wCtr []) 1 0x4000001008).isSome = true ∧ ctrVal (wCtr []) 1 0x4000001008 + 5 < 2 ^ 64 ∧ ctrPage (wCtr []) 1 0x5000 = none := by decide +kernel
theorem test_wit_Debugging_clear : clearing w0.core = false ∧ clearing wCaptureClear.core = true ∧ wCaptureClear.wf = true ∧ (ctxAt w0 0).wp.toNat + 8 * 63 + 8 ≤ 0x1F000 := by decide +kernel

/-! ## Decompression -/

/-- A Zstandard frame of one raw block and one of one repeated byte, and an LZ4 block of two literals, written out from their formats. -/
theorem test_zstd_raw : decompress 1 [] [0x28, 0xB5, 0x2F, 0xFD, 0x20, 2, 0x11, 0, 0, 0x61, 0x62, 9] 2 = some ([0x61, 0x62], 11) := by decide +kernel
theorem test_zstd_rle : decompress 1 [] [0x28, 0xB5, 0x2F, 0xFD, 0x20, 5, 0x2B, 0, 0, 0x7A] 5 = some ([0x7A, 0x7A, 0x7A, 0x7A, 0x7A], 10) := by decide +kernel
theorem test_lz4_match : decompress 2 [] [0x11, 0x61, 1, 0, 0x50, 1, 2, 3, 4, 5] 11 = some ([0x61, 0x61, 0x61, 0x61, 0x61, 0x61, 1, 2, 3, 4, 5], 10) := by decide +kernel

/-! ## More clauses, with states that meet them -/

theorem test_wit_StepRunsDecoded_held : (ctx (setCtx (fun x => { x with heldTrap := some (7, 0) }) w0)).heldTrap = some (7, 0) ∧
    (setCtx (fun x => { x with heldTrap := some (7, 0) }) w0).plain := by unfold State.plain; decide +kernel
/-- Core 1 issues as a secondary of core 0, an item of a stream stage that reads an export of core 2's at distance 1; `log` is what the primary has
noted. -/
def wSecItem (log : List Nat) : State := { w0Core (fun c => { c with
    id := 1
    act := some { w0Act with redm := 1, rplc := 1, group := [0, 1], strm := 9, item := 6, stage := some { stage3 with group := [0, 3, 4, 5, 7, 6] } }
    fwd := mapAt (fun _ => .valid 4 9 [5, 6]) 4 c.fwd }) with
  others := [(0, { id := 0, ctxs := mapAt (fun x => { x with leadLog := log }) 0 (List.replicate 11 {}) })] }
theorem test_wit_StepRunsDecoded_secondary : (acquireExport (.aluAdd fPre 4 2) (wSecItem [])).toOption.isNone = true ∧ secondary (wSecItem []) = true ∧
    (exporter (.aluAdd fPre 4 2) (wSecItem [])).isSome = true := by decide +kernel
theorem test_wit_OtherTraps_secondary : secondary (setCtx (fun x => { x with wp := (wSecItem []).core.twp }) (wSecItem [])) = true ∧
    (ctx (setCtx (fun x => { x with wp := (wSecItem []).core.twp }) (wSecItem []))).wp = (setCtx (fun x => { x with wp := (wSecItem []).core.twp }) (wSecItem [])).core.twp := by decide +kernel
/-- In the last instruction of a replay that counts in W[15], its sector filled or not, poisoned or not. -/
def wCount (n : Nat) : State := setW 15 n (w0Ctx (fun x => { x with repst := repOf 0x40 1 2 3 true false 1 0, pc := 0x4000000042 }))
def wCountFill : State := let s := wCount 3; { s with core := { s.core with wins := [some { base := (wAddr s 15) / 256 * 256, len := 256, va := 0x4000000000 }, none, none, none] } }
def wCountBad : State := let s := wCount 3; { s with core := { s.core with poison := [wAddr s 15 / 8] } }
theorem test_wit_Bellows_count : (wCount 3).wf = true ∧ asyncDue (wCount 3) = none ∧ (ctx (wCount 3)).longs = [] ∧ repActive (ctx (wCount 3)).repst.toNat = true ∧
    repCsrc (ctx (wCount 3)).repst.toNat = false ∧ repLen (ctx (wCount 3)).repst.toNat = repIdx (ctx (wCount 3)).repst.toNat ∧ passStall (wCount 3) = none ∧
    regW (wCount 3) 15 ≠ 1 ∧ passStall (wCount 1) = none ∧ regW (wCount 1) 15 = 1 ∧ needsFill (wCount 3).core [wAddr (wCount 3) 15] = none ∧
    passStall wCountFill = some (.fill (wAddr wCountFill 15)) ∧ wCountFill.wf = true ∧ asyncDue wCountFill = none ∧
    passStall wCountBad = some (.count (wAddr wCountBad 15)) ∧ wCountBad.wf = true := by decide +kernel
def insPre : Pre := { fPre with reg := some ⟨0, 0, 3⟩, qual := some ⟨0, 0, false, 10⟩ }
def cPre : Pre := { insPre with reg := some ⟨0, 0, 2⟩, fwd := some ⟨true, 2⟩ }
theorem test_wit_VecMoves_forward : (wItem 6 (.valid 4 9 [5, 6])).plain ∧ fPre.fwd.isSome = true ∧
    forwarded (.vecBc fPre 1 2) (wItem 6 (.valid 4 9 [5, 6])) (some (wB fPre 2)) none = .ok (some (false, 6)) ∧ checkType (.vecBc fPre 1 2) (wItem 6 (.valid 4 9 [5, 6])) = .ok () ∧
    vecReady (wItem 6 (.valid 4 9 [5, 6])) [2] [1] [] [] ∧ forwarded (.vecIota fPre 1 2) (wItem 6 (.valid 4 9 [5, 6])) (some (wB fPre 2)) none = .ok (some (false, 6)) ∧
    forwarded (.vecIns insPre 1 2) (wItem 6 (.valid 4 9 [5, 6])) (some (wB insPre 2)) (some (cNum insPre)) = .ok (some (false, 6)) ∧
    checkType (.vecIns insPre 1 2) (wItem 6 (.valid 4 9 [5, 6])) = .ok () ∧ vecReady (wItem 6 (.valid 4 9 [5, 6])) [2, 3] [1] [3] [] := by
  unfold State.plain vecReady; decide +kernel
theorem test_wit_VecMoves_forwardC : forwarded (.vecIns cPre 1 3) (wItem 6 (.valid 4 9 [5, 6])) (some 3) (some 2) = .ok (some (true, 6)) ∧
    forwarded (.vecSel cPre 1 3) (wItem 6 (.valid 4 9 [5, 6])) none (some 2) = .ok (some (true, 6)) ∧
    checkType (.vecSel cPre 1 3) (wItem 6 (.valid 4 9 [5, 6])) = .ok () ∧
    checkType (.vecExt cPre 1 3) (wItem 6 (.valid 4 9 [5, 6])) = .ok () ∧
    checkType (.vecQnt { cPre with qual := some ⟨0, 0, false, 8⟩ } 1 3) (wItem 6 (.valid 4 9 [5, 6])) = .ok () ∧
    checkType (.vecDqnt { cPre with qual := some ⟨0, 0, false, 8⟩ } 1 3) (wItem 6 (.valid 4 9 [5, 6])) = .ok () ∧
    checkType (.vecAdd fPre 1 2) (wItem 6 (.valid 4 9 [5, 6])) = .ok () ∧ names (wItem 6 (.valid 4 9 [5, 6])) [] [1, 2] = .ok () := by decide +kernel
theorem test_wit_Traps_begins : begins (w0W [0, 0x1EFF9]) ∧ (w0W [0, 0x1EFF9]).plain ∧ oneSrc (.ld {} 4 5 0) (w0W [0, 0x1EFF9]) {} 4 5 = .ok 0x1EFF9 ∧ 0x1EFF9 % 8 ≠ 0 ∧
    0x1FFFF < 0x1FFF9 + 8 - 1 ∧ (ctx w0).priv = false := by unfold State.plain begins; decide +kernel
/-- A rel store at sys scope after its commit point: its effect is next, or it waits. -/
def wRel (st : Nat) : State := setCtx (fun x => { x with stage := st, ops := [0x4000, 7, 1, 0x4000000000, 4] }) (wVal [] 0x4000)
theorem test_wit_Stores_stages : (ctx (wRel 3)).ops = [0x4000, 7, b2n true, 0x4000000000, 4] ∧ (ctx (wRel 3)).stage = 3 ∧ (wRel 3).plain ∧ memOrder (ordPre 2 4) = 2 ∧
    (ctx (wRel 4)).stage = 4 ∧ backsOpen (wRel 4) = false ∧ awayOpen (wRel 5) = false ∧ memOrder (ordPre 1 2) = 1 ∧
    backsOpen { wRel 4 with pkg := { (wRel 4).pkg with wb := [{ bytes := [(0x100000, 1)], core := 0, waiters := [(0, 0)] }] } } = true := by unfold State.plain; decide +kernel
theorem test_wit_Stores_votes : redundant (wPairOf (wVal [] 0x4000)) = true ∧ begins (wPairOf (wVal [] 0x4000)) ∧ (wPairOf (wVal [] 0x4000)).plain ∧
    journalFull 0x4000 8 (wPairOf (wVal [] 0x4000)) = false ∧ writableRange (wPairOf (wVal [] 0x4000)) (asidOf (wPairOf (wVal [] 0x4000))) 0x4000000000 1 = true := by
  unfold State.plain begins; decide +kernel
theorem test_wit_Stores_journal : (ctx (wPairOf (w0W [7, 0x1EFF8]))).journal.length + (doublewords 0x1EFF8 8).length ≤ 512 ∧ 0x1EFF8 < 0x1F000 := by decide +kernel
/-- Another context's MEM instruction is not over; this one's write-backs were accepted. -/
def wMemQ : State := let s := w0W [1 + 256 * 0x40 + 2 ^ 24 * 0, 256 * 0x40000000]; { s with core := { s.core with memQ := [3] } }
def wUnmap : State := setCtx (fun x => { x with stage := 3, ops := [0] }) (wVal [(0x4001, 0)] 0)
theorem test_wit_StashInstructions_order : wMemQ.core.memQ ≠ [] ∧ wMemQ.plain ∧ (wVal [] 0).core.memQ = [] ∧
    memOperands (.memSmap {} 4 5) wMemQ {} 4 5 = .ok (1 + 256 * 0x40 + 2 ^ 24 * (1 - 1), 256 * 0x40000000) ∧ wMemQ.core.wins.getD 1 none = none ∧
    (ctx wUnmap).stage = 3 ∧ (ctx wUnmap).ops = [0] ∧ wUnmap.plain := by unfold State.plain; decide +kernel
theorem test_wit_StashInstructions_sinv : memOperands (.memSinv {} 5 6) (wVal [(0x4001, 0)] 0x4000 [64]) {} 5 6 = .ok (0x4000, 64) ∧
    (ctx (setCtx (fun x => { x with stage := 3, ops := [0x4000, 64] }) (wVal [] 0))).ops = [0x4000, 64] ∧ begins (w0W [0, 0x1EF80, 128]) ∧
    (w0W [0, 0x1EF80, 128]).core.memQ = [] ∧ mxuNames (w0W [0, 0x1EF80, 128]).core 0x1EF80 128 = false ∧ redundant (w0W [0, 0x1EF80, 128]) = false ∧
    memOperands (.memLsclr {} 5 6) (w0W [0, 0x1EF80, 0]) {} 5 6 = .ok (0x1EF80, 0) := by unfold begins; decide +kernel
theorem test_wit_SysWords_sys : (ctx (w0Ctx (fun x => { x with stage := 3 }))).stage = 3 ∧ awayOpen (w0Ctx (fun x => { x with stage := 3 })) = false ∧
    awayOpen { w0Ctx (fun x => { x with stage := 3 }) with pkg := { w0.pkg with msgs := [{ msg := segMsg, src := 0, ctx := 0, dest := 2, pkg := 3 }] } } = true ∧
    (w0Ctx (fun x => { x with stage := 3 })).plain ∧ acquire 3 (retire {} w0) = .ok (acquireAt 3 (retire {} w0)) := by unfold State.plain; decide +kernel
/-- Context 0 was in the middle of a rel store of an earlier commit point when context 3 committed. -/
def midOf : Mid := { pc := 0x4000000010, stage := 4, ops := [0x4000, 7, 1, 0x4000000000, 4], wait := .accept, repst := 0, w15 := 0, longs := [], own := true }
theorem test_wit_Segments_mid : (ctxAt (setCtxAt 0 (fun x => { x with mid := some midOf }) wRoll) 0).mid = some midOf ∧
    (setCtxAt 0 (fun x => { x with mid := some midOf }) wRoll).wf = true ∧ (ctxAt wRoll 0).mid = none ∧ (ctxAt wRoll 3).mid = none := by decide +kernel
def wBadCtr : State := let s := wSlots [0x4000001008]; { s with pkg := { s.pkg with ctrs := [⟨1, 0x4000001008, 7, true⟩] } }
theorem test_wit_CounterInstructions_bad : ctrBad wBadCtr (asidOf wBadCtr) 0x4000001008 = true ∧ checkCtr wBadCtr (asidOf wBadCtr) 0x4000001008 = .ok () ∧ wBadCtr.plain ∧
    oneSrc (.longCread {} 4 4 0) wBadCtr {} 4 4 = .ok 0x4000001008 ∧ ctrBad (wSlots []) (asidOf (wSlots [])) 0x4000001008 = false := by unfold State.plain; decide +kernel
/-- In trap handling; eight commands wait in the MXU queue, four in a channel. -/
def wCmdTrap (c : Nat) : State := setCtx (fun x => { x with inTrap := true }) (wCmd c)
def wCmdFull : State := let s := wCmd 6; { s with core := { s.core with
  mxu := { s.core.mxu with q := List.replicate 8 (nopEnt 6) }
  chans := [{ q := List.replicate 4 { cmd := 0x104, ctx := 0, inst := 1, stamp := 0 } }, {}, {}, {}] } }
theorem test_wit_Pushes_trap : (ctx (wCmdTrap 6)).inTrap = true ∧ (wCmdTrap 6).plain ∧ begins (wCmdTrap 6) ∧ mxuLocal (wCmdTrap 6).core.mxu.link 6 = true ∧ bit (mstat (wCmdTrap 6).core) 5 = false ∧
    mxuLocal (wCmdTrap 6).core.mxu.link (BitVec.ofNat 512 msigCmd) = false ∧ 8 ≤ wCmdFull.core.mxu.q.length ∧ wCmdFull.plain ∧ begins wCmdFull ∧ mxuNames wCmdFull.core 0x2000 64 = false ∧
    4 ≤ (wCmdFull.core.chans.getD 0 {}).q.length ∧ begins (wCmd 6) := by unfold State.plain begins; decide +kernel
theorem test_wit_Helpers_begins : begins wStart ∧ begins wTen ∧ begins wPurge := by unfold begins; decide +kernel

theorem test_wit_MmaStep_kinds : mOp (0x19 : Cmd) = 0x19 ∧ mOp (0x1C : Cmd) = 0x1C ∧ isMma (mOp (0x1A : Cmd)) = true ∧ mmaAcc (mOp (0x1A : Cmd)) ≠ 1 ∧
    (tileVals (mmaA 0x1A) (mmaPlanes 0x1A) 0 (List.replicate 256 0)).length = 256 ∧ (tileVals (mmaB 0x1A) (mmaPlanes 0x1A) 0 (List.replicate 256 0)).length = 256 ∧
    (tileVals (mmaB 0x1B) (mmaPlanes 0x1B) 0 (List.replicate 128 0)).length = 256 ∧ fld (BitVec.ofNat 512 (2 + 2 ^ 9)) 9 8 = 2 ∧ (List.replicate 128 (0#8)).length = 128 ∧
    (0x100 : Nat) = 16 * 16 ∧ sv (fld (BitVec.ofNat 512 (5 * 2 ^ 96)) 127 96) 32 = 5 := by decide +kernel
def mmaBad : MxuCmd := { mmaEnt 0 0 false 0 with bad := true }
/-- The head's west tile is of another opcode; the pusher's activation runs. -/
def wClash : State := let s := wMx [mmaEnt 0 2 true 0]; { s with core := { s.core with
  actCount := 0
  mxu := { s.core.mxu with west := [{ tag := 0x19, bytes := [] }] } } }
theorem test_wit_MxuCommands_ue : mmaBad.bad = true ∧ isMma (mOp mmaBad.cmd) = true ∧ mxuGated mmaBad = false ∧ (wMx [mmaBad]).core.mxu.q = mmaBad :: [] ∧
    (wMx [mmaBad]).core.halted = false ∧ (mmaEnt 0 2 true 0).bad = false ∧ wClash.core.act = some w0Act ∧ owns wClash.core (mmaEnt 0 2 true 0).stamp (mmaEnt 0 2 true 0).inst = true ∧
    (nextTile wClash.core (mmaEnt 0 2 true 0) false).map (·.tag % 256) = some 0x19 := by decide +kernel
theorem test_wit_ChannelCommands_begun : (cpEnt (cpCmd 3 0) true true 0).early = [] ∧ (cpEnt (cpCmd 2 256) true true 1).olds = [] ∧ (cpEnt (cpCmd 2 256) true true 1).bad = false ∧
    fld (cpEnt (cpCmd 3 0) true true 0).cmd 7 0 = 3 ∧ copyInbound (cpEnt (cpCmd 3 0) true true 0).cmd = true ∧ (nextSector (wCh [cpEnt (cpCmd 1 0) true true 0]) (cpEnt (cpCmd 1 0) true true 0)).isSome = true ∧
    ({ cpEnt (cpCmd 2 256) true true 1 with bad := true } : CopyCmd).bad = true ∧ (cpEnt (cpCmd 2 256) true true 1).seconds = [] ∧
    fld (cpEnt (cpCmd 2 256) true true 1).cmd 7 0 = 2 ∧ copyInbound (cpEnt (cpCmd 1 256) false false 0).cmd = false := by decide +kernel
/-- ZDEC of the bytes of an LZ4 block, its length given. -/
def zdecCmd (n olen : Nat) : Nat := stoCmd 4 0 (2 * 2 ^ 10) + olen * 2 ^ 160 + n * 2 ^ 128 - 64 * 2 ^ 128
def wZdec (bs : List Byte) (olen : Nat) : State := let s := wSto [stoEnt (zdecCmd bs.length olen)]
  { s with pkg := { s.pkg with mem := writeBytes s.pkg.mem 0x100000 bs } }
theorem test_wit_StorageCommands_zdec : stoOp (stoEnt (zdecCmd 1 9)) = 4 ∧ stoReady (wZdec [0x10] 9) 0 = true ∧ stoReady (wSto []) 0 = false ∧
    (homeRead (creameryView (wZdec [0x10] 9)) 1 0x4000000000 1).isSome = true ∧ homePoisoned (creameryView (wZdec [0x10] 9)) 1 0x4000000000 1 = false ∧
    expanded (creameryView (wZdec [0x10] 9)) (stoEnt (zdecCmd 1 9)) [0x10] = none ∧ stoDk (stoEnt (zdecCmd 6 5)) = 2 ∧
    (expanded (creameryView (wZdec [0x50, 1, 2, 3, 4, 5] 4)) (stoEnt (zdecCmd 6 4)) [0x50, 1, 2, 3, 4, 5]).map (fun x => (x.1.length, tailOk 2 false x.2)) = some (5, true) := by decide +kernel
theorem test_wit_StorageCommands_ring : stoReady (wSto [stoEnt (stoCmd 1 1 0)]) 0 = true := by
  have h : (wSto [stoEnt (stoCmd 1 1 0)]).pkg.sto[0]? = some (stoEnt (stoCmd 1 1 0)) := rfl
  have r : inRing (wSto [stoEnt (stoCmd 1 1 0)]) 0 (stoEnt (stoCmd 1 1 0)) = true := by simp [inRing, wSto, w0Pkg]
  simp only [stoReady, h, r, Bool.and_true]
  decide +kernel
/-- A message for package 3, with a route or without one. -/
def away1 : Flight := { flight1 with pkg := 3 }
def wAwayMsg (rs : List (Nat × Nat)) : State := w0Pkg (fun k => { k with msgs := [away1], routes := rs })
theorem test_wit_Messages_away : (wAwayMsg []).pkg.msgs[0]? = some away1 ∧ away1.msg.strm = none ∧ inTurn (wAwayMsg []) 0 away1 = true ∧ away1.pkg ≠ (wAwayMsg []).pkg.pkgId.toNat ∧
    (look away1.pkg (wAwayMsg []).pkg.routes).isNone = true ∧ inTurn (wAwayMsg [(3, 0)]) 0 away1 = true ∧
    ((wAwayMsg [(3, 0)]).pkg.cutOff.contains (away1.src, away1.pkg) || (look away1.pkg (wAwayMsg [(3, 0)]).pkg.routes).isNone) = false := by decide +kernel
theorem test_wit_CounterEvents_retiring : retiring (wArmed 0 0) 0 = false := by decide +kernel
theorem test_wit_Dispatches_spill : (w0Core (fun c => { c with spill := [segMsg] })).core.inbound = [] ∧ (w0Core (fun c => { c with spill := [segMsg] })).core.spill = segMsg :: [] := by decide +kernel
/-- The same with snapshots, which a mismatch returns to. -/
def wJudge (g : List Nat) (vs : List Vote) (f : Ctx → Ctx) : State :=
  let t := wVote g vs
  let h := fun (x : Ctx) => if x.live then f { x with snap := some (snapOf w0.core.ls x) } else x
  { t with core := { t.core with ctxs := t.core.ctxs.map h }, others := t.others.map (fun e => (e.1, { e.2 with ctxs := e.2.ctxs.map h })) }
def laterSeg (x : Ctx) : Ctx := { x with firstSeg := false }
theorem test_wit_Verdicts_mismatch : (wJudge [0, 1] (pairVotes 0 3 4) laterSeg).wf = true ∧ (wJudge [0, 1] (pairVotes 0 3 4) laterSeg).pkg.unit[0]? = some (voteOf [0, 1] 0 0 3) ∧
    ballots (wJudge [0, 1] (pairVotes 0 3 4) laterSeg) [0, 1] 0 = [voteOf [0, 1] 0 0 3, voteOf [0, 1] 1 0 4] ∧ agree (voteOf [0, 1] 0 0 3) (voteOf [0, 1] 1 0 4) = false ∧
    (∀ c ∈ [coreOf (wJudge [0, 1] (pairVotes 0 3 4) laterSeg) 0, coreOf (wJudge [0, 1] (pairVotes 0 3 4) laterSeg) 1], c.act.map (·.redm) = some 1 ∧
      (c.ctxs.getD 0 {}).live = true ∧ (c.ctxs.getD 0 {}).snapBad = false ∧ (c.ctxs.getD 0 {}).mid = none ∧ (c.ctxs.getD 0 {}).snap.isSome = true ∧
      (c.ctxs.getD 0 {}).replays = 0 ∧ (c.ctxs.getD 0 {}).firstSeg = false) := by decide +kernel
theorem test_wit_Verdicts_first : ∀ c ∈ [coreOf (wJudge [0, 1] (pairVotes 0 3 4) (fun x => { x with firstSeg := true })) 0,
    coreOf (wJudge [0, 1] (pairVotes 0 3 4) (fun x => { x with firstSeg := true })) 1], (c.ctxs.getD 0 {}).replays = 0 ∧ (c.ctxs.getD 0 {}).firstSeg = true ∧
      c.act.map (·.source) = some 1 := by decide +kernel
theorem test_wit_Verdicts_again : ((coreOf (wJudge [0, 1] (pairVotes 0 3 4) (fun x => { laterSeg x with replays := 1 })) 0).ctxs.getD 0 {}).replays = 1 ∧
    ((coreOf (wJudge [0, 1] (pairVotes 0 3 4) (fun x => { laterSeg x with replays := 1 })) 1).ctxs.getD 0 {}).firstSeg = false ∧ (voteOf [0, 1] 0 4 0).kind = 4 := by decide +kernel
theorem test_wit_Verdicts_late : ballots (wJudge [0, 1] [voteOf [0, 1] 0 0 3] laterSeg) [0, 1] 0 = [voteOf [0, 1] 0 0 3] ∧ (voteOf [0, 1] 0 0 3).core = 0 ∧
    paused (coreOf (wJudge [0, 1] [voteOf [0, 1] 0 0 3] laterSeg) 0) = false ∧ paused (coreOf (wJudge [0, 1] [voteOf [0, 1] 0 0 3] laterSeg) 1) = false ∧
    ballots (wJudge [0, 1] [voteOf [0, 1] 1 0 3] laterSeg) [0, 1] 0 = [voteOf [0, 1] 1 0 3] := by decide +kernel
def triVotes (a b c : Nat) : List Vote := [voteOf [0, 1, 2] 0 0 a, voteOf [0, 1, 2] 1 0 b, voteOf [0, 1, 2] 2 0 c]
def wTri (a b c : Nat) : State := wJudge [0, 1, 2] (triVotes a b c) laterSeg
theorem test_wit_Verdicts_triad : (wTri 3 3 4).wf = true ∧ [0, 1, 2].Nodup ∧ ballots (wTri 3 3 4) [0, 1, 2] 0 = triVotes 3 3 4 ∧ ballots (wTri 3 4 3) [0, 1, 2] 0 = triVotes 3 4 3 ∧
    ballots (wTri 4 3 3) [0, 1, 2] 0 = triVotes 4 3 3 ∧ (∀ k ∈ [0, 1, 2], (coreOf (wTri 3 3 4) k).act.isSome = true ∧ ∀ o ∈ (coreOf (wTri 3 3 4) k).wins, o = none) ∧
    agree (voteOf [0, 1, 2] 1 0 3) (voteOf [0, 1, 2] 2 0 3) = true := by decide +kernel
/-- A replica that is halted. -/
def wPaused : State := let t := wVote [0, 1] [voteOf [0, 1] 0 0 3]; { t with others := t.others.map (fun e => (e.1, { e.2 with halted := true })) }
theorem test_wit_Verdicts_paused : ∃ k ∈ (voteOf [0, 1] 0 0 3).group, paused (coreOf wPaused k) = true := ⟨1, by decide +kernel, by decide +kernel⟩
theorem test_wit_TimeSharing_vote : settled (wInst (fun x => { x with placement := [0] }) wCaptureClear) 0 = some (1, inst1 (wInst (fun x => { x with placement := [0] }) wCaptureClear)) ∧
    ∃ j ∈ membersOf (inst1 (wInst (fun x => { x with placement := [0] }) wCaptureClear)), clearing (coreOf (wInst (fun x => { x with placement := [0] }) wCaptureClear) j) = true := by
  exact ⟨by decide +kernel, 0, by decide +kernel, by decide +kernel⟩
/-- Two clusters of one die miss in the page of w0; a walk is open for it. -/
def wWalk (ws : List (Nat × Nat × Nat)) : State := w0Pkg (fun k => { k with walks := ws })
theorem test_wit_Translation_walks : (misses (wWalk []))[0]? = some ⟨0, 1, 0x4000000000⟩ ∧ ((wWalk []).pkg.walks.contains (walkOf ⟨0, 1, 0x4000000000⟩)) = false ∧
    (misses (wWalk [walkOf ⟨0, 1, 0x4000000000⟩]))[0]? = some ⟨0, 1, 0x4000000000⟩ ∧ ([walkOf ⟨0, 1, 0x4000000000⟩].take 64).contains (walkOf ⟨0, 1, 0x4000000000⟩) = true ∧
    (wWalk []).pkg.tlb = [] ∧ (misses (wWalk [])).length ≤ 1024 := by decide +kernel
/-- Context 0 waits for the fill of a sector without a translation; a move that has ended everywhere but here. -/
def wFillFault : State := w0Core (fun c => { c with wins := [some { win0 with va := 0x5000000000, tagged := [] }, none, none, none], ctxs := mapAt (fun x => { x with wait := .fill 0x4040 }) 0 c.ctxs })
theorem test_wit_Translation_fill : (sites wFillFault)[0]? = some (.ctx wFillFault.core.id 0 0x5000000040) ∧ 0x5000000040 % 64 = 0 ∧ (ctxAt wFillFault 0).wait = .fill 0x4040 ∧
    wFillFault.wf = true ∧ wFillFault.pkg.migrs = [] ∧ spanFree wFillFault 1 0x5000000000 4096 = true ∧ frameFree wFillFault 0x200000 4096 = true := by decide +kernel
theorem test_wit_Translation_moved : ({ shoot1 [] with moved := true } : Shoot).moved = true ∧ ({ shoot1 [] with moved := true } : Shoot).old = some page0 ∧
    (wMig [mig1 false] []).pkg.nts = [] ∧ (wMig [mig1 false] []).pkg.wb = [] ∧ (wMig [mig1 false] []).pkg.cc = [] := by decide +kernel
theorem test_wit_CacheEvents_line : ∃ x ∈ (w0Pkg (fun k => { k with cc := [dirty1, { dirty1 with pa := 0x100041 }] })).pkg.cc, clusterOf x.core = clusterOf dirty1.core ∧ x.pa / 256 = dirty1.pa / 256 :=
  ⟨dirty1, by decide +kernel, by decide +kernel, by decide +kernel⟩
theorem test_wit_ErrorEvents_units : unitClass (sliceUnit 0 3) = 2 ∧ unitHolds w0 (sliceUnit 1 3) 0x100040 = false ∧ unitHolds w0 (sliceUnit 0 3) 0x100040 = true ∧ unitClass (0x3000 : Nat) = 3 ∧
    subPort { w0 with pkg := { w0.pkg with subWidths := [8, 8] } } 1 = true ∧ subPort w0 99 = false ∧ rowsUsed w0.pkg (sliceUnit 0 3) < 32 ∧
    (w0.pkg.waysLost.filter (· == sliceUnit 0 3)).length < 2 ∧ trafficTo (wAwayMsg [(3, 0)]) 3 = true ∧ trafficTo wRoute 9 = false ∧
    (look 5 w0.pkg.retries).getD 0 + 1 < 8 ∧ 8 ≤ (look 5 (w0Pkg (fun k => { k with retries := [(5, 7)] })).pkg.retries).getD 0 + 1 := by decide +kernel
theorem test_wit_ErrorEvents_degraded : (w0Pkg (fun k => { k with mgState := 4, repl := 3 })).pkg.repl.testBit 1 = true ∧ (w0Pkg (fun k => { k with mgState := 4 })).pkg.repl.testBit 1 = false := by decide +kernel
theorem test_wit_Debugging_denied : lsDenied 0x1FF00 = true ∧ (ctxAt wHalted 0).live = true ∧ (∀ h, h < 11 → (ctxAt wHalted h).live = true → (ctxAt wHalted h).wp ≠ wHalted.core.twp) ∧
    (ctxAt { wHalted with core := { wHalted.core with ctxs := List.replicate 11 {} } } 0).live = false := by decide +kernel
/-- R406: a die in DEC-TED holds 896 MiB. -/
theorem test_l2_capacity : l2KiB w0 1 = 1024 * 1024 ∧ l2KiB (w0Pkg (fun k => { k with decTed := [1] })) 1 = 896 * 1024 := by decide +kernel
/-- R409: the record of slice 3 of die 1 with CAUSE 8 lies at BAR 0 offset 0x400_0000 + 128 × 0x12003, and BSTAT says that it is held. -/
theorem test_bank_read : [0, 8, 64, 72].map (fun o => barRead (w0Pkg (fun k => { k with banks := [(0x12003, { record := some { unit := 0x12003, cause := 8 } })] }))
    (0x4000000 + 128 * 0x12003 + o)) = [some 0x800, some 0x12003, some 1, none] := by decide +kernel

end Sys2Proof.Tests
end

section
/-! PROOFS. A write of FLG by `xfer.mts` (R26, R128). -/

open Sys2Proof Sys2Proof.Machine

namespace Sys2Proof.Proofs

/-! ## The trap value that names the base word (R92) -/

/-- What stands below REASON in the trap value fits in its 20 bits. -/
theorem illValue_index_word_lt (i : Instr) : preLen (preOf i) % 8 * 2 ^ 16 + (baseWord i).toNat < 2 ^ 20 := by
  have := (baseWord i).isLt
  omega

theorem illValue_reason (r : Nat) (i : Instr) : illValue r i / 2 ^ 20 = r := by
  have := illValue_index_word_lt i
  unfold illValue
  omega

theorem illValue_word (r : Nat) (i : Instr) : illValue r i % 2 ^ 16 = (baseWord i).toNat := by
  have := (baseWord i).isLt
  unfold illValue
  omega

/-! ## The value written to FLG -/

/-- The values of FLG that are accepted, by the fields RM and PL (R26). -/
theorem flgLegal_iff (x : Word) : flgLegal x.toNat = true ↔
    (x.extractLsb' 16 3).toNat ≤ 4 ∧ x.extractLsb' 12 4 ≠ 1 ∧ (x.extractLsb' 12 4).toNat ≤ 8 := by
  have rm : bits x.toNat 18 16 = (x.extractLsb' 16 3).toNat := (BitVec.extractLsb'_toNat ..).symm
  have pl : bits x.toNat 15 12 = (x.extractLsb' 12 4).toNat := (BitVec.extractLsb'_toNat ..).symm
  have pl1 : x.extractLsb' 12 4 = 1 ↔ (x.extractLsb' 12 4).toNat = 1 := BitVec.toNat_inj.symm
  rw [flgLegal, rm, pl, ne_eq, pl1]
  simp only [Bool.and_eq_true, Bool.or_eq_true, decide_eq_true_eq]
  omega

theorem flgWritten_toNat (x : Word) : flgWritten x.toNat = x &&& 0x1FFF1F := by
  apply BitVec.eq_of_toNat_eq
  simp [flgWritten]

/-! ## `xfer.mts` -/

/-- A chain without PFX.F has no forwarded operand. -/
theorem forwarded_none {i : Instr} (h : (preOf i).fwd = none) (s : State) (b c : Option Nat) : forwarded i s b c = .ok none := by
  simp [forwarded, h]

/-- Outside a window of long results `xfer.mts` writes the system register with W[a], whichever register it is. -/
theorem exec_xferMts_plain {p : Pre} {a : BitVec 4} {s : State} (h : s.plain) (hf : p.fwd = none) (hu : usable s [wA p a] [])
    (b : BitVec 4) :
    exec (.xferMts p a b) s = run s (writeSys (.xferMts p a b) (wB p b) (regW s (wA p a)) s) := by
  obtain ⟨hn, hr⟩ := hu
  simp [execXferMts, sysNum, runFlushed_plain h, hn, hr, forwarded_none (i := .xferMts p a b) hf]

theorem writeSys_flg_illegal {x : Nat} (h : flgLegal x = false) (i : Instr) (s : State) :
    writeSys i 2 x s = .error (.trap cILL (illValue 8 i)) := by
  simp [writeSys, h]

theorem writeSys_flg_legal {x : Nat} (h : flgLegal x = true) (i : Instr) (s : State) :
    writeSys i 2 x s = .ok (retire (preOf i) (setCtx (fun y => { y with flg := flgWritten x }) s)) := by
  simp [writeSys, h]

/-- A change of the issuing context that keeps its pc keeps the address of the next instruction. -/
theorem nextPc_setCtx {s : State} (hc : s.core.cur < s.core.ctxs.length) {f : Ctx → Ctx} (hf : (f (ctx s)).pc = (ctx s).pc) (p : Pre) :
    nextPc p (setCtx f s) = nextPc p s := by
  rw [nextPc, nextPc, start, start, ctx_setCtx hc, hf]

/-- Settles O23: the checks pass, so the instruction is the write of FLG, which traps or changes FLG alone. -/
theorem mtsFlg : Obligations.MtsFlg := by
  intro p a b s x hs hf hu hb hx
  have he : exec (.xferMts p a b) s = run s (writeSys (.xferMts p a b) 2 x.toNat s) := by
    rw [exec_xferMts_plain hs hf hu, hb, hx]
  constructor
  · intro hbad
    have hill : flgLegal x.toNat = false := by
      rw [← Bool.not_eq_true, flgLegal_iff]
      rintro ⟨hrm, hpl1, hpl8⟩
      rcases hbad with h | h | h
      · omega
      · exact hpl1 h
      · omega
    refine ⟨illValue 8 (.xferMts p a b), ?_, illValue_reason 8 _, illValue_word 8 _⟩
    rw [he, writeSys_flg_illegal hill]
    exact run_trap s cILL _
  · intro hrm hpl1 hpl8
    have hok : flgLegal x.toNat = true := (flgLegal_iff x).2 ⟨hrm, hpl1, hpl8⟩
    have ⟨_, _, _, hlongs, hrep⟩ := hs
    obtain ⟨t, hrun, honly, hctx⟩ := run_setCtx hs p (fun y => { y with flg := flgWritten x.toNat }) hlongs hrep
    refine ⟨t, ?_, honly, ?_⟩
    · rw [he, writeSys_flg_legal hok]
      exact hrun
    · rw [hctx, nextPc_setCtx hs.cur rfl, flgWritten_toNat]
      rfl

end Sys2Proof.Proofs
end

section
/-! PROOFS. MOVI (R116) and BRK (R105). -/

open Sys2Proof Sys2Proof.Machine

namespace Sys2Proof.Proofs

/-! ## An immediate written to a register (R83, R116) -/

/-- The signed reading of an immediate, as the word that a register takes. -/
theorem immS64_eq_toNat_ofInt (p : Pre) (bw base : Nat) : immS64 p bw base = (BitVec.ofInt 64 (immS p bw base)).toNat :=
  (BitVec.toNat_ofInt ..).symm

/-- An instruction that sets W[a] without reading a register gives W[a] that value, where the window check of a passes. -/
theorem givesReg_of_immSet {i : Instr} {p : Pre} {a : BitVec 4} {v : Word} {s : State} (hs : s.plain)
    (hn : names s [wA p a] [] = .ok ()) (hi : exec i s = immSet p a v.toNat s) : givesReg i p (wA p a) v s := by
  obtain ⟨t, hrun, hread, honly, hat⟩ := run_setW hs p (wA p a) v.toNat
  refine ⟨t, ?_, ?_, honly, hat⟩
  · rw [hi, immSet, hn, bind_ok, hrun]
  · rw [hread, Nat.mod_eq_of_lt v.isLt]

/-- Settles O19: `movi` writes the word of its signed immediate, whose width is 12 bits for each PFX.I and the 8 of the base word. -/
theorem moviResult : Obligations.MoviResult := by
  intro p a i s hs hn
  refine givesReg_of_immSet hs hn ?_
  rw [exec_movi, execMovi, immS64_eq_toNat_ofInt, immS, immWidth]

/-! ## What a debug halt leaves where it is (R415) -/

/-- Where a context stands: its pc, and whether it is in trap handling. -/
def place (x : Ctx) : Word × Bool := (x.pc, x.inTrap)

/-- Which context of a core issued last, and where each one stands. -/
def standing (c : Core) : Nat × List (Word × Bool) := (c.cur, c.ctxs.map place)

/-- States whose cores stand alike have their issuing contexts at one place. -/
theorem place_ctx_of_standing {s t : State} (h : standing t.core = standing s.core) : place (ctx t) = place (ctx s) := by
  obtain ⟨hcur, hctxs⟩ := Prod.mk.inj h
  calc place (ctx t)
    _ = (t.core.ctxs.map place).getD t.core.cur (place {}) := (List.getD_map ..).symm
    _ = (s.core.ctxs.map place).getD s.core.cur (place {}) := by rw [hcur, hctxs]
    _ = place (ctx s) := List.getD_map ..

/-- A change of one element that keeps g of it keeps g of the whole list. -/
theorem map_mapAt {α β : Type} {g : α → β} {f : α → α} (h : ∀ x, g (f x) = g x) :
    ∀ (n : Nat) (l : List α), (mapAt f n l).map g = l.map g
  | 0, [] => rfl
  | _ + 1, [] => rfl
  | 0, x :: xs => by rw [mapAt, List.map_cons, List.map_cons, h]
  | n + 1, x :: xs => by rw [mapAt, List.map_cons, List.map_cons, map_mapAt h n xs]

theorem standing_setCtxAt {f : Ctx → Ctx} (hf : ∀ x, place (f x) = place x) (h : Nat) (s : State) :
    standing (setCtxAt h f s).core = standing s.core :=
  congrArg (Prod.mk s.core.cur) (map_mapAt hf h s.core.ctxs)

/-- The write of a long result goes to the local store or to FLG. -/
theorem standing_landLong (h : Nat) (l : Long) (c : Core) : standing (landLong h l c) = standing c := by
  unfold landLong
  split
  · rfl
  · split
    · refine congrArg (Prod.mk c.cur) (map_mapAt ?_ h c.ctxs)
      exact fun _ => rfl
    · rfl

theorem standing_landLongs (h : Nat) (ls : List Long) (c : Core) : standing (landLongs h ls c) = standing c := by
  unfold landLongs
  induction ls.reverse generalizing c with
  | nil => rfl
  | cons l ls ih => rw [List.foldl_cons, ih, standing_landLong]

theorem standing_flushLongsAt (h : Nat) (s : State) : standing (flushLongsAt h s).core = standing s.core := by
  unfold flushLongsAt
  split
  · rfl
  · refine (standing_setCtxAt ?_ h _).trans (standing_landLongs h _ s.core)
    exact fun _ => rfl

theorem standing_flushAll (s : State) : standing (flushAll s).core = standing s.core := by
  unfold flushAll
  induction List.range 11 generalizing s with
  | nil => rfl
  | cons h hs ih => rw [List.foldl_cons, ih, standing_flushLongsAt]

theorem standing_cancelWaits (s : State) : standing (cancelWaits s).core = standing s.core := by
  refine congrArg (Prod.mk s.core.cur) ?_
  rw [cancelWaits, updCore_core, List.map_map]
  refine List.map_congr_left (fun x _ => ?_)
  rw [Function.comp_apply]
  split <;> rfl

/-- Leaving its gang changes nothing of the focal core but the gang; another member may be left alone in it (R231). -/
theorem leaveGang_core (s : State) : ∃ g, (leaveGang s).core = { s.core with gang := g } := by
  unfold leaveGang
  split
  · refine ⟨.alone, ?_⟩
    dsimp only
    split
    · unfold setCore
      split
      · next hk => rw [coreOf, if_pos hk]; rfl
      · rfl
    · rfl
  · exact ⟨.alone, rfl⟩
  · exact ⟨s.core.gang, rfl⟩

theorem standing_leaveGang (s : State) : standing (leaveGang s).core = standing s.core := by
  obtain ⟨g, hg⟩ := leaveGang_core s
  rw [hg]
  rfl

theorem standing_halted (c : Core) : standing { c with halted := true, stepCtx := none } = standing c := rfl

/-- A debug halt leaves every context of the core where it stands. -/
theorem standing_haltCore (s : State) : standing (haltCore s).core = standing s.core := by
  rw [haltCore, updCore_core, standing_halted, quiesce, standing_leaveGang, standing_cancelWaits, standing_flushAll]

/-- On a halted core that the debugger does not step no context may issue. -/
theorem nextCtx_halted {s : State} (hh : s.core.halted = true) (hs : s.core.stepCtx = none) : nextCtx s = none := by
  have not_ready (h : Nat) : ready s h = false := by simp [ready, hh, hs]
  rw [nextCtx, List.find?_eq_none]
  intro h _
  simp [mayIssue, not_ready h]

/-! ## BRK (R105) -/

/-- BRK takes its trap once the outstanding long results are written; their open windows count it, unless the trap is held (R29, R33). -/
theorem exec_sysBrk_trap {s : State} (h : s.core.breakCapture = false) (c : BitVec 4) :
    exec (.sysBrk c) s = .next (takeTrap cBRK c.toNat (if trapBusy (flushLongs s) then flushLongs s else tick (flushLongs s))) := by
  rw [exec_sysBrk, execSysBrk, h]
  rfl

/-- A captured BRK is a debug halt, which waits for the end of a bulk clear (R139, R415). -/
theorem exec_sysBrk_captured {s : State} (h : s.core.breakCapture = true) (c : BitVec 4) :
    exec (.sysBrk c) s = .next (if clearing s.core then s else haltCore s) := by
  rw [exec_sysBrk, execSysBrk, if_pos h]

/-- Settles O13: by whether the debug port captures BRK, and then whether a clear holds the halt up. -/
theorem brkTraps : Obligations.BrkTraps := by
  intro c s
  refine ⟨?_, ?_, ?_⟩
  · rintro hcap u rfl
    exact exec_sysBrk_trap hcap c
  · intro hcap hclear
    rw [exec_sysBrk_captured hcap, if_pos hclear]
  · intro hcap hclear
    obtain ⟨hpc, htrap⟩ := Prod.mk.inj (place_ctx_of_standing (standing_haltCore s))
    refine ⟨haltCore s, ?_, rfl, hpc, htrap, nextCtx_halted rfl rfl⟩
    rw [exec_sysBrk_captured hcap, hclear, if_neg Bool.false_ne_true]

end Sys2Proof.Proofs
end
